-- ==== Sys2Proof/Word.lean ====
section
/-! DEFINITION. The machine's word, byte and command descriptor as bit vectors (R6, R9, R40, R61). -/

namespace Sys2Proof

/-- A word: an unsigned 64-bit number (R9, `XLEN = 64` of R6). `+64`, `-64`, `*64` and `xor` of R9 are
`+`, `-`, `*` and `^^^` of `BitVec 64`. -/
abbrev Word := BitVec 64

/-- A byte of the view (R40). -/
abbrev Byte := BitVec 8

/-- A format C command descriptor, 256 bits (R61). -/
abbrev Descriptor := BitVec 256

end Sys2Proof
end

