-- ==== Sys2Proof/Config.lean ====
section
/-! DEFINITION. What is fixed for the machine and is not state: the bounds of the open parameters of R8.
The model has no free value: the spec leaves no value of an instruction open. -/

namespace Sys2Proof.Config

/-- The largest `VIEW_LEN` the parameter's constraint of R8 admits. -/
def maxViewLen : Nat := 2 ^ 63 - 1

/-- `VIEW_LEN` in `State.reset`. DESIGN CHOICE (log entry 3): `VIEW_LEN` is an open parameter (R8), so the
model's own reset state takes the largest one. Unsafe if a claim rests on it; none does. -/
def resetViewLen : Nat := maxViewLen

/-- What a byte of the view that the list of cells does not list reads as. DESIGN CHOICE (log entry 3): the
canonical way to write an array of bytes as a list of cells; any array can be written so. -/
def unlistedByte : Byte := 0x00#8

end Sys2Proof.Config
end

