-- ==== Sys2Proof/Syntax.lean ====
section
/-! DEFINITION. The syntax: the sixteen values of PHASE, the eighteen instructions of the opcode table (two host
commands of format C, sixteen micro-operations of format U), and the assembler's commands with their three
pseudo-commands. -/

namespace Sys2Proof

/-- The sixteen values of the PHASE register (R21, R66). None is reserved or illegal. -/
inductive Phase where
  | idle | check | linit | blk | fold | mrg1 | mrg2 | mrg3
  | mrg4 | sseed | addlen | t8 | t4 | t1 | aval | ret
  deriving DecidableEq, Repr

/-- One constructor per row of `spec/opcode_table.json`. A micro-operation has no operand field (R66). -/
inductive Instr where
  /-- `HASH seed, offset, length` (R62, R103). -/
  | hash (seed offset length : Word)
  /-- `HASHV value` (R62, R104). -/
  | hashv (value : Word)
  /-- `ACCEPT`, performed in PHASE `IDLE` (R102). -/
  | accept
  /-- `CHECK` (R108). -/
  | check
  /-- `LINIT` (R131). -/
  | linit
  /-- `BLK` (R132). -/
  | blk
  /-- `FOLD` (R141). -/
  | fold
  /-- `MRG1` (R142). -/
  | mrg1
  /-- `MRG2` (R143). -/
  | mrg2
  /-- `MRG3` (R144). -/
  | mrg3
  /-- `MRG4` (R145). -/
  | mrg4
  /-- `SSEED` (R146). -/
  | sseed
  /-- `ADDLEN` (R147). -/
  | addlen
  /-- `T8` (R148). -/
  | t8
  /-- `T4` (R149). -/
  | t4
  /-- `T1` (R150). -/
  | t1
  /-- `AVAL` (R161). -/
  | aval
  /-- `RET` (R168). -/
  | ret
  deriving DecidableEq, Repr

/-- One command as the assembler or host software writes it (R68, R69). Numbers are not yet bounded to 64 bits:
`Asm.wellFormed` bounds them. `HASHT` takes the bytes of the text, since UTF-8 encoding is outside the engine
(R107, U12). -/
inductive Asm where
  | hash (seed offset length : Nat)
  | hashv (value : Nat)
  | hashd
  | hashs (seed : Nat)
  | hasht (text : List Byte)
  deriving DecidableEq, Repr

end Sys2Proof
end

