-- ==== Sys2Proof/WellFormed.lean ====
section
/-! DEFINITION. Well-formedness of what a host writes: descriptors (R65) and assembler commands (R68), and of
instructions. -/

namespace Sys2Proof

/-- A descriptor is legal unless OPC is neither 0x01 nor 0x02, or RSV0 is not zero (R65). -/
def Descriptor.wellFormed (c : Descriptor) : Bool :=
  c.extractLsb' 8 56 == 0 && (c.extractLsb' 0 8 == 0x01 || c.extractLsb' 0 8 == 0x02)

/-- Whether a number fits an operand word (R63). -/
def fitsWord (n : Nat) : Bool := decide (n < 2 ^ 64)

/-- An assembler command is well formed when every number fits its 64-bit field (R61, R63), and a text when its
bytes fit a view (R8). -/
def Asm.wellFormed : Asm → Bool
  | .hash seed offset length => fitsWord seed && fitsWord offset && fitsWord length
  | .hashv value => fitsWord value
  | .hashd => true
  | .hashs seed => fitsWord seed
  | .hasht text => decide (text.length ≤ Config.maxViewLen)

/-- Every instruction is well formed: an operand word is taken as it stands, any 64-bit value (R63, R104), and a
micro-operation has no operand. Written per constructor, so a later constraint has a place. -/
def Instr.wellFormed : Instr → Bool
  | .hash _ _ _ => true
  | .hashv _ => true
  | .accept => true
  | .check => true
  | .linit => true
  | .blk => true
  | .fold => true
  | .mrg1 => true
  | .mrg2 => true
  | .mrg3 => true
  | .mrg4 => true
  | .sseed => true
  | .addlen => true
  | .t8 => true
  | .t4 => true
  | .t1 => true
  | .aval => true
  | .ret => true

end Sys2Proof
end

