-- ==== Sys2Proof/Decode.lean ====
section
/-! DEFINITION. Decoding of format C (command descriptors, R61, R62, R67) and of format U (the PHASE code, R66),
then the encoder, written from the same tables. -/

namespace Sys2Proof

/-- Why a descriptor is illegal (R65): which of the two tests of R67 it fails first. The engine reports the same
`ILLEGAL_CMD` for both. -/
inductive Illegal where
  /-- RSV0 is not zero. -/
  | reserved (rsv0 : BitVec 56)
  /-- OPC is no opcode of R62. -/
  | opcode (opc : Byte)
  deriving DecidableEq, Repr

/-- The result of decoding: an instruction, or a rejection by name. -/
inductive Decoded where
  | instr (i : Instr)
  | illegal (why : Illegal)
  deriving DecidableEq, Repr

/-- The fields of format C (R61). -/
def opcField (c : Descriptor) : Byte := c.extractLsb' 0 8
def rsv0Field (c : Descriptor) : BitVec 56 := c.extractLsb' 8 56
def w1Field (c : Descriptor) : Word := c.extractLsb' 64 64
def w2Field (c : Descriptor) : Word := c.extractLsb' 128 64
def w3Field (c : Descriptor) : Word := c.extractLsb' 192 64

/-- Decode of format C, total on all descriptors (R67). `W2` and `W3` of `HASHV` are not read (R65, U8). -/
def decodeCommand (c : Descriptor) : Decoded :=
  if rsv0Field c ≠ 0#56 then .illegal (.reserved (rsv0Field c))
  else if opcField c = 0x01#8 then .instr (.hash (w1Field c) (w2Field c) (w3Field c))
  else if opcField c = 0x02#8 then .instr (.hashv (w1Field c))
  else .illegal (.opcode (opcField c))

/-- The PHASE with a given 4-bit code (R66). -/
def Phase.ofCode (c : BitVec 4) : Phase :=
  match c.toNat with
  | 0x0 => .idle
  | 0x1 => .check
  | 0x2 => .linit
  | 0x3 => .blk
  | 0x4 => .fold
  | 0x5 => .mrg1
  | 0x6 => .mrg2
  | 0x7 => .mrg3
  | 0x8 => .mrg4
  | 0x9 => .sseed
  | 0xA => .addlen
  | 0xB => .t8
  | 0xC => .t4
  | 0xD => .t1
  | 0xE => .aval
  | _ => .ret

/-- The micro-operation performed at the next step in a PHASE (R66). -/
def Phase.instr : Phase → Instr
  | .idle => .accept
  | .check => .check
  | .linit => .linit
  | .blk => .blk
  | .fold => .fold
  | .mrg1 => .mrg1
  | .mrg2 => .mrg2
  | .mrg3 => .mrg3
  | .mrg4 => .mrg4
  | .sseed => .sseed
  | .addlen => .addlen
  | .t8 => .t8
  | .t4 => .t4
  | .t1 => .t1
  | .aval => .aval
  | .ret => .ret

/-- Decode of format U: the identity on the table of R66, total on the sixteen codes (R67). -/
def decodeMicro (c : BitVec 4) : Instr := (Phase.ofCode c).instr

/-- The decoder on an instruction numbered as `spec/opcode_table.json` numbers it. A row of at most one byte is
format U (a byte above 0x0F is no 4-bit code and is refused), a longer one format C. A descriptor has no byte
order (R61), so its 256 bits are taken as one number (log entry 10). -/
def decodeTableWord (nbits w : Nat) : Option Instr :=
  if nbits ≤ 8 then
    if w < 2 ^ 4 then some (decodeMicro (BitVec.ofNat 4 w)) else none
  else if w < 2 ^ 256 then
    match decodeCommand (BitVec.ofNat 256 w) with
    | .instr i => some i
    | .illegal _ => none
  else none

/-- The 4-bit code of a PHASE (R66). -/
def Phase.code : Phase → BitVec 4
  | .idle => 0x0#4
  | .check => 0x1#4
  | .linit => 0x2#4
  | .blk => 0x3#4
  | .fold => 0x4#4
  | .mrg1 => 0x5#4
  | .mrg2 => 0x6#4
  | .mrg3 => 0x7#4
  | .mrg4 => 0x8#4
  | .sseed => 0x9#4
  | .addlen => 0xA#4
  | .t8 => 0xB#4
  | .t4 => 0xC#4
  | .t1 => 0xD#4
  | .aval => 0xE#4
  | .ret => 0xF#4

/-- The words of an instruction: a 256-bit descriptor or a 4-bit PHASE code (R60). -/
inductive Encoded where
  | command (c : Descriptor)
  | micro (code : BitVec 4)
  deriving DecidableEq, Repr

/-- A format C descriptor from its fields (R61), written `W3_W2_W1_{RSV0, OPC}` as in R68. -/
def descriptor (w3 w2 w1 : Word) (opc : Byte) : Descriptor :=
  w3 ++ w2 ++ w1 ++ (0#56 ++ opc)

/-- The encoder. The assembler emits zero for `W2` and `W3` of `HASHV` (R65, R68). -/
def encode : Instr → Encoded
  | .hash seed offset length => .command (descriptor length offset seed 0x01#8)
  | .hashv value => .command (descriptor 0#64 0#64 value 0x02#8)
  | .accept => .micro Phase.idle.code
  | .check => .micro Phase.check.code
  | .linit => .micro Phase.linit.code
  | .blk => .micro Phase.blk.code
  | .fold => .micro Phase.fold.code
  | .mrg1 => .micro Phase.mrg1.code
  | .mrg2 => .micro Phase.mrg2.code
  | .mrg3 => .micro Phase.mrg3.code
  | .mrg4 => .micro Phase.mrg4.code
  | .sseed => .micro Phase.sseed.code
  | .addlen => .micro Phase.addlen.code
  | .t8 => .micro Phase.t8.code
  | .t4 => .micro Phase.t4.code
  | .t1 => .micro Phase.t1.code
  | .aval => .micro Phase.aval.code
  | .ret => .micro Phase.ret.code

/-- The decoder on the words of either format. -/
def decode : Encoded → Decoded
  | .command c => decodeCommand c
  | .micro code => .instr (decodeMicro code)

end Sys2Proof
end

