-- ==== Sys2Proof/Machine/State.lean ====
section
/-! DEFINITION. The architectural state of one engine (R10) as plain data, the model's two stop reasons, and the
state after reset (R33). -/

namespace Sys2Proof.Machine

/-- The view's bytes: cells at strictly rising addresses, none equal to what an unlisted address reads as. -/
abbrev Memory := List Host.Cell

/-- The registers that can hold `⊥` and that a micro-operation reads (R10): the name a read of `⊥` reports. -/
inductive Reg where
  | v1 | v2 | v3 | v4 | h | seed | len | ptr | rem | val | imm
  deriving DecidableEq, Repr

/-- The causes of an architectural fault (R170). Fault entry is a next state (`raise`), not a stop. -/
inductive Cause where
  /-- `BOUNDS`, raised by `CHECK` (R171). -/
  | bounds
  /-- `ILLEGAL_CMD`, raised by `ACCEPT` (R172). -/
  | illegalCmd
  deriving DecidableEq, Repr

/-- One event of the response channel (R29). -/
inductive Response where
  /-- `Resp(OK, d)`. -/
  | ok (digest : Word)
  /-- `Resp(ERR, c)`. -/
  | err (code : BitVec 8)
  deriving DecidableEq, Repr

/-- The state of one engine: the registers of R10 and, after them, the two open parameters of R8 (log entry 2).
`none` is the spec's own value `⊥`, "no value" (R9); it is not a missing reset value. -/
structure State where
  /-- Lane accumulators (R11). -/
  v1 : Option Word
  v2 : Option Word
  v3 : Option Word
  v4 : Option Word
  /-- Scalar accumulator (R13). -/
  h : Option Word
  /-- Operand latches (R15 to R20). -/
  seed : Option Word
  len : Option Word
  ptr : Option Word
  rem : Option Word
  val : Option Word
  imm : Option Bool
  /-- The sequencer state, the engine's program counter (R21). -/
  phase : Phase
  /-- Status, error and result registers (R23 to R27). -/
  busy : Bool
  done : Bool
  err : Bool
  errcode : BitVec 8
  digest : Option Word
  /-- The command slot: empty or one descriptor (R28). -/
  cmd : Option Descriptor
  /-- The response channel, oldest event first (R29). -/
  resp : List Response
  /-- The byte view and its length, parameters of R8; no step writes them. -/
  view : Memory
  viewLen : Nat
  deriving DecidableEq, Repr

/-- Why a step stops with a fault. Both reasons are faults of the model, not responses of the hardware (U6); no
state reachable from reset raises either (R32, R48). -/
inductive Fault where
  /-- A micro-operation read a register that holds `⊥`. Raised by every meaning that reads such a register. Safe:
  the model stops where a physical register would give bits no rule may depend on (R32). -/
  | bottomRead (r : Reg)
  /-- A `MemRead` of `n` bytes at `a` outside the view. Raised by `BLK`, `T8`, `T4`, `T1`. Safe (R48). -/
  | outsideView (a n : Nat)
  deriving DecidableEq, Repr

/-- Why a step has no meaning. -/
inductive Refusal where
  /-- The instruction has no meaning yet. Raised by an arm of `exec`; no arm raises it. Safe. -/
  | notModelled (mnemonic : String)
  deriving DecidableEq, Repr

/-- The outcome of a meaning. -/
abbrev Out := Host.Outcome State Fault Refusal

/-- The state after reset over a given view (R33): the registers have the values of R33 and the response channel
is empty, as for a model that starts at reset. -/
def State.resetWith (view : Memory) (viewLen : Nat) : State where
  v1 := none
  v2 := none
  v3 := none
  v4 := none
  h := none
  seed := none
  len := none
  ptr := none
  rem := none
  val := none
  imm := none
  phase := .idle
  busy := false
  done := false
  err := false
  errcode := 0x00#8
  digest := none
  cmd := none
  resp := []
  view := view
  viewLen := viewLen

/-- The machine right after reset (R33). The view is an open parameter (R8); here nothing is listed and its length
is `Config.resetViewLen` (log entry 3). -/
def State.reset : State := State.resetWith [] Config.resetViewLen

end Sys2Proof.Machine
end

