-- ==== Sys2Proof/Machine/Flags.lean ====
section
/-! DEFINITION. The status, error and result registers: every way a rule writes them (R22 to R27). No arithmetic
writes a flag (R86), so these are all the flag computations there are. -/

namespace Sys2Proof.Machine

/-- `STATUS` as the host reads it: BUSY, DONE, ERR in bits 0, 1, 2, zero above (R22). -/
def State.status (s : State) : BitVec 8 :=
  0#5 ++ BitVec.ofBool s.err ++ BitVec.ofBool s.done ++ BitVec.ofBool s.busy

/-- What every `ACCEPT` clears first (R102): DONE, ERR, ERRCODE and DIGEST. -/
def State.clearStatus (s : State) : State :=
  { s with done := false, err := false, errcode := 0x00#8, digest := none }

/-- `ACCEPT` of a legal command sets BUSY (R23). -/
def State.setBusy (s : State) : State := { s with busy := true }

/-- `RET` delivers the digest: DIGEST and DONE set, BUSY cleared (R168). -/
def State.setDone (d : Word) (s : State) : State :=
  { s with digest := some d, done := true, busy := false }

/-- Fault entry's writes of the status registers (R174). -/
def State.setFault (code : BitVec 8) (s : State) : State :=
  { s with err := true, errcode := code, done := false, digest := none, busy := false }

/-- The code a cause puts into ERRCODE (R26, R170). -/
def Cause.code : Cause → BitVec 8
  | .bounds => 0x01#8
  | .illegalCmd => 0x02#8

end Sys2Proof.Machine
end

