-- ==== Sys2Proof/Machine/Primitives.lean ====
section
/-! DEFINITION. The hardwired constants and the pure functions on words: rotation, mix, update, the tail steps, the
avalanche, and the little-endian value of bytes. They write no state and raise nothing. -/

namespace Sys2Proof.Machine

/-- The five constants (R80). -/
def P1 : Word := 0x9E3779B185EBCA87#64
def P2 : Word := 0xC2B2AE3D27D4EB4F#64
def P3 : Word := 0x165667B19E3779F9#64
def P4 : Word := 0x85EBCA77C2B2AE63#64
def P5 : Word := 0x27D4EB2F165667C5#64

/-- Left rotation by `r` in 1 to 63 (R83; the definition is general knowledge, log entry 11). -/
def rotl64 (x : Word) (r : Nat) : Word := (x <<< r) ||| (x >>> (64 - r))

/-- `mix(a, w)` (R88). -/
def mix (a w : Word) : Word := rotl64 (a + w * P2) 31 * P1

/-- `update(h, v)` (R90); no rotation of `h`. -/
def update (h v : Word) : Word := (h ^^^ mix 0#64 v) * P1 + P4

/-- `tail8(h, w)` (R148). -/
def tail8 (h w : Word) : Word := rotl64 (h ^^^ mix 0#64 w) 27 * P1 + P4

/-- `tail4(h, w)` (R149). -/
def tail4 (h w : Word) : Word := rotl64 (h ^^^ (w * P1)) 23 * P2 + P3

/-- `tail1(h, b)` (R150). -/
def tail1 (h b : Word) : Word := rotl64 (h ^^^ (b * P5)) 11 * P1

/-- The rotate-and-add of the four lanes (R141). -/
def foldLanes (v1 v2 v3 v4 : Word) : Word :=
  rotl64 v1 1 + rotl64 v2 7 + rotl64 v3 12 + rotl64 v4 18

/-- The lanes' initial values (R131): each adds its own prime-derived offset to the seed. -/
def laneInit1 (seed : Word) : Word := seed + P1 + P2
def laneInit2 (seed : Word) : Word := seed + P2
def laneInit3 (seed : Word) : Word := seed
def laneInit4 (seed : Word) : Word := seed - P1

/-- The five avalanche stages (R162 to R166); all shifts are logical (R84). -/
def av1 (h : Word) : Word := h ^^^ (h >>> 33)
def av2 (s : Word) : Word := s * P2
def av3 (s : Word) : Word := s ^^^ (s >>> 29)
def av4 (s : Word) : Word := s * P3
def av5 (s : Word) : Word := s ^^^ (s >>> 32)

/-- `avalanche(h)` (R161). -/
def avalanche (h : Word) : Word := av5 (av4 (av3 (av2 (av1 h))))

/-- The number whose `n` little-endian bytes are `f a, f (a + 1), …` (R44). -/
def leNat (f : Nat → Byte) (a : Nat) : Nat → Nat
  | 0 => 0
  | n + 1 => leNat f a n + (f (a + n)).toNat * 2 ^ (8 * n)

/-- The same as a word, zero-extended (R44, R47). -/
def leWord (f : Nat → Byte) (a n : Nat) : Word := BitVec.ofNat 64 (leNat f a n)

end Sys2Proof.Machine
end

