-- ==== Sys2Proof/Machine/Ops.lean ====
section
/-! DEFINITION. The named operations the meanings are made of: over the view's bytes, the register writes, the
response channel, fault entry, the acceptance of a command, the choice of the next phase. -/

namespace Sys2Proof.Machine

/-! ### The view's bytes -/

/-- The byte at an address of the view (R40); an unlisted address reads `Config.unlistedByte`. -/
def Memory.byteAt : Memory → Nat → Byte
  | [], _ => Config.unlistedByte
  | (a', b) :: m, a => if a' = a then b else Memory.byteAt m a

/-- A host's write of one byte, keeping the canonical form. The engine has no such operation (R42). -/
def Memory.write : Memory → Nat → Byte → Memory
  | [], a, b => if b = Config.unlistedByte then [] else [(a, b)]
  | (a', b') :: m, a, b =>
    if a < a' then
      if b = Config.unlistedByte then (a', b') :: m else (a, b) :: (a', b') :: m
    else if a = a' then
      if b = Config.unlistedByte then m else (a, b) :: m
    else (a', b') :: Memory.write m a b

/-- The memory holding exactly the given bytes from address `a` on. -/
def Memory.ofBytesFrom : Nat → List Byte → Memory
  | _, [] => []
  | a, b :: bs =>
    if b = Config.unlistedByte then Memory.ofBytesFrom (a + 1) bs
    else (a, b) :: Memory.ofBytesFrom (a + 1) bs

/-- Cells at strictly rising addresses from `lo` on and below `hi`, none listing the unlisted byte. -/
def Memory.wfFrom : Nat → Nat → Memory → Bool
  | _, _, [] => true
  | lo, hi, (a, b) :: m =>
    decide (lo ≤ a) && decide (a < hi) && (b != Config.unlistedByte) && Memory.wfFrom (a + 1) hi m

/-- The canonical form of a view of `len` bytes: no cell outside the view (R40). -/
def Memory.wf (len : Nat) (m : Memory) : Bool := Memory.wfFrom 0 len m

/-- The bytes `VIEW[a .. a + n - 1]`, lowest address first. -/
def Memory.slice (m : Memory) (a n : Nat) : List Byte :=
  (List.range n).map fun i => m.byteAt (a + i)

/-! ### Register writes -/

/-- `PHASE <- p`. -/
def State.goTo (p : Phase) (s : State) : State := { s with phase := p }

/-- `H <- x`. -/
def State.setH (x : Word) (s : State) : State := { s with h := some x }

/-- `V1 <- a ; V2 <- b ; V3 <- c ; V4 <- d`. -/
def State.setLanes (a b c d : Word) (s : State) : State :=
  { s with v1 := some a, v2 := some b, v3 := some c, v4 := some d }

/-- The lanes are destroyed (R12). -/
def State.dropLanes (s : State) : State :=
  { s with v1 := none, v2 := none, v3 := none, v4 := none }

/-- `H` is discarded (R13). -/
def State.dropH (s : State) : State := { s with h := none }

/-- `PTR <- PTR + n ; REM <- REM - n`, the two registers holding `ptr` and `rem`. On states no run reaches the
arithmetic wraps (log entry 6). -/
def State.consume (ptr rem n : Word) (s : State) : State :=
  { s with ptr := some (ptr + n), rem := some (rem - n) }

/-- The operand latches as `ACCEPT` writes them; REM starts at LEN (R16, R18, R102). -/
def State.latch (seed len ptr : Word) (val : Option Word) (imm : Bool) (s : State) : State :=
  { s with seed := some seed, len := some len, ptr := some ptr, rem := some len, val := val, imm := some imm }

/-- `CMD <- empty`: the slot's command is consumed (R28, R102). -/
def State.takeCmd (s : State) : State := { s with cmd := none }

/-- `emit r`: one event is appended to the response channel (R29). -/
def State.emit (r : Response) (s : State) : State := { s with resp := s.resp ++ [r] }

/-! ### Fault entry -/

/-- Fault entry, `raise <cause>` (R174). Nothing is saved, there is no handler, and there is no return from a fault:
the engine is idle again (R178). -/
def State.raise (c : Cause) (s : State) : State :=
  ((s.setFault c.code).emit (.err c.code)).goTo .idle

/-! ### Acceptance of a command -/

/-- What `ACCEPT` does before it looks at the decoded command (R102). -/
def State.beginAccept (s : State) : State := s.takeCmd.clearStatus

/-- `ACCEPT` of `HASH` (R102, R103). -/
def State.acceptHash (seed offset length : Word) (s : State) : State :=
  ((s.beginAccept.latch seed length offset none false).setBusy).goTo .check

/-- `ACCEPT` of `HASHV` (R102, R104). -/
def State.acceptHashv (value : Word) (s : State) : State :=
  ((s.beginAccept.latch 0#64 8#64 0#64 (some value) true).setBusy).goTo .sseed

/-- `ACCEPT` of a decoded descriptor (R102): anything but the two commands is illegal (R65, R172). -/
def State.acceptDecoded (d : Decoded) (s : State) : State :=
  match d with
  | .instr (.hash seed offset length) => s.acceptHash seed offset length
  | .instr (.hashv value) => s.acceptHashv value
  | _ => s.beginAccept.raise .illegalCmd

/-! ### Control transfer -/

/-- `NEXT_TAIL(r)` (R110). -/
def nextTail (r : Word) : Phase :=
  if 8 ≤ r.toNat then .t8
  else if 4 ≤ r.toNat then .t4
  else if 1 ≤ r.toNat then .t1
  else .aval

/-- Whether a whole block is left (R109). -/
def nextBlock (r : Word) : Phase := if 32 ≤ r.toNat then .blk else .fold

/-- The path selected by the total length (R108). -/
def pathOf (len : Word) : Phase := if 32 ≤ len.toNat then .linit else .sseed

/-- The bounds violation of R108: the sum is not wrapped. -/
def boundsViolated (ptr len : Word) (viewLen : Nat) : Bool :=
  ptr.msb || len.msb || decide (viewLen < ptr.toNat + len.toNat)

/-- The micro-operation selected by PHASE (R21, R66): the sequencer's fetch. There is no instruction memory (R53). -/
def State.fetch (s : State) : Instr := decodeMicro s.phase.code

/-! ### Placing a micro-operation to run (used by `withFetchWord` only, log entry 8) -/

/-- A register that holds `⊥` gets a value, one that holds a value keeps it. -/
def orWord (r : Option Word) (w : Word) : Option Word := some (r.getD w)

/-- Values for those registers the selected micro-operation reads that hold `⊥`: zero, and for REM the least count
the phase admits (R31 item 7). No state of the machine's own ever enters a phase with such a register (R32). -/
def State.operandsFor (p : Phase) (s : State) : State :=
  match p with
  | .idle => s
  | .check => { s with ptr := orWord s.ptr 0, len := orWord s.len 0 }
  | .linit => { s with seed := orWord s.seed 0 }
  | .blk =>
    { s with
      v1 := orWord s.v1 0, v2 := orWord s.v2 0, v3 := orWord s.v3 0, v4 := orWord s.v4 0,
      ptr := orWord s.ptr 0, rem := orWord s.rem 32 }
  | .fold => { s with v1 := orWord s.v1 0, v2 := orWord s.v2 0, v3 := orWord s.v3 0, v4 := orWord s.v4 0 }
  | .mrg1 => { s with h := orWord s.h 0, v1 := orWord s.v1 0 }
  | .mrg2 => { s with h := orWord s.h 0, v2 := orWord s.v2 0 }
  | .mrg3 => { s with h := orWord s.h 0, v3 := orWord s.v3 0 }
  | .mrg4 => { s with h := orWord s.h 0, v4 := orWord s.v4 0 }
  | .sseed => { s with seed := orWord s.seed 0 }
  | .addlen => { s with h := orWord s.h 0, len := orWord s.len 0, rem := orWord s.rem 0 }
  | .t8 =>
    { s with
      h := orWord s.h 0, ptr := orWord s.ptr 0, rem := orWord s.rem 8, imm := some (s.imm.getD false),
      val := if s.imm = some true then orWord s.val 0 else s.val }
  | .t4 => { s with h := orWord s.h 0, ptr := orWord s.ptr 0, rem := orWord s.rem 4 }
  | .t1 => { s with h := orWord s.h 0, ptr := orWord s.ptr 0, rem := orWord s.rem 1 }
  | .aval => { s with h := orWord s.h 0 }
  | .ret => { s with h := orWord s.h 0 }

end Sys2Proof.Machine
end

