-- ==== Sys2Proof/Machine/Operands.lean ====
section
/-! DEFINITION. How a micro-operation gets its operands: a register that may hold `⊥`, bytes of the view, and the
data word of `T8`. -/

namespace Sys2Proof.Machine

/-- The value of register `r`, whose content is `v`; a read of `⊥` is a fault of the model (R32, U6). -/
def need {α : Type} (r : Reg) (v : Option α) (k : α → Out) : Out :=
  match v with
  | some x => k x
  | none => .fault (.bottomRead r)

/-- `MemRead(a, n)` (R44): little-endian, zero-extended, at any alignment (R46). A request outside the view is a fault
of the model (R48, U6); the address is not wrapped (log entry 7). -/
def withView (s : State) (a n : Nat) (k : Word → Out) : Out :=
  if a + n ≤ s.viewLen then k (leWord s.view.byteAt a n)
  else .fault (.outsideView a n)

/-- The data word of `T8` (R148): `VAL` when `IMM` is 1, else 8 bytes of the view at `PTR`. -/
def withTailWord (s : State) (ptr : Word) (k : Word → Out) : Out :=
  need .imm s.imm fun imm =>
    if imm then need .val s.val k else withView s ptr.toNat 8 k

end Sys2Proof.Machine
end

