-- ==== Sys2Proof/Machine/BlockAccumulator.lean ====
section
/-! DEFINITION. The block accumulator: LINIT, BLK. -/

namespace Sys2Proof.Machine

/-- `LINIT` (R131). -/
def execLinit (s : State) : Out :=
  need .seed s.seed fun seed =>
    .next ((s.setLanes (laneInit1 seed) (laneInit2 seed) (laneInit3 seed) (laneInit4 seed)).goTo .blk)

/-- `BLK` (R132): four words, one per lane, at PTR, PTR + 8, PTR + 16, PTR + 24. -/
def execBlk (s : State) : Out :=
  need .v1 s.v1 fun v1 =>
  need .v2 s.v2 fun v2 =>
  need .v3 s.v3 fun v3 =>
  need .v4 s.v4 fun v4 =>
  need .ptr s.ptr fun ptr =>
  need .rem s.rem fun rem =>
  withView s ptr.toNat 8 fun w1 =>
  withView s (ptr.toNat + 8) 8 fun w2 =>
  withView s (ptr.toNat + 16) 8 fun w3 =>
  withView s (ptr.toNat + 24) 8 fun w4 =>
    .next (((s.setLanes (mix v1 w1) (mix v2 w2) (mix v3 w3) (mix v4 w4)).consume ptr rem 32#64).goTo
      (nextBlock (rem - 32#64)))

end Sys2Proof.Machine
end

