-- ==== Sys2Proof/Machine/Commands.lean ====
section
/-! DEFINITION. The host commands and the sequencer's own micro-operations: HASH, HASHV, ACCEPT, CHECK. -/

namespace Sys2Proof.Machine

/-- `HASH seed, offset, length`: the step at which the engine takes the command (R102, R103). The command is consumed
only in PHASE `IDLE`; in any other phase it waits and nothing changes (R28, R101, log entry 4). -/
def execHash (seed offset length : Word) (s : State) : Out :=
  if s.phase = .idle then .next (s.acceptHash seed offset length) else .next s

/-- `HASHV value`: the step at which the engine takes the command (R102, R104); it skips `CHECK`. In any other phase
than `IDLE` the command waits (R28, R101, log entry 4). -/
def execHashv (value : Word) (s : State) : Out :=
  if s.phase = .idle then .next (s.acceptHashv value) else .next s

/-- `ACCEPT` (R102): the pending descriptor is consumed, decoded and taken. With an empty slot the engine waits (R100);
outside `IDLE` a pending command is held (R101, log entry 4). -/
def execAccept (s : State) : Out :=
  if s.phase = .idle then
    match s.cmd with
    | none => .next s
    | some c => .next (s.acceptDecoded (decodeCommand c))
  else .next s

/-- `CHECK` (R108): the bounds check, then the path. It reads PTR and LEN and no byte of the view. -/
def execCheck (s : State) : Out :=
  need .ptr s.ptr fun ptr =>
  need .len s.len fun len =>
    if boundsViolated ptr len s.viewLen then .next (s.raise .bounds)
    else .next (s.goTo (pathOf len))

end Sys2Proof.Machine
end

