-- ==== Sys2Proof/Machine/Finalizer.lean ====
section
/-! DEFINITION. The finalizer up to the tail: FOLD, MRG1 to MRG4, SSEED, ADDLEN, T8, T4, T1. -/

namespace Sys2Proof.Machine

/-- One merge of a lane into `H` with `update` (R90), then the given phase. -/
def mergeLane (r : Reg) (lane : Option Word) (p : Phase) (s : State) : Out :=
  need .h s.h fun h =>
  need r lane fun v =>
    .next ((s.setH (update h v)).goTo p)

/-- `FOLD` (R141). `H` is not read. -/
def execFold (s : State) : Out :=
  need .v1 s.v1 fun v1 =>
  need .v2 s.v2 fun v2 =>
  need .v3 s.v3 fun v3 =>
  need .v4 s.v4 fun v4 =>
    .next ((s.setH (foldLanes v1 v2 v3 v4)).goTo .mrg1)

/-- `MRG1` (R142). -/
def execMrg1 (s : State) : Out := mergeLane .v1 s.v1 .mrg2 s

/-- `MRG2` (R143). -/
def execMrg2 (s : State) : Out := mergeLane .v2 s.v2 .mrg3 s

/-- `MRG3` (R144). -/
def execMrg3 (s : State) : Out := mergeLane .v3 s.v3 .mrg4 s

/-- `MRG4` (R145): the last merge destroys the lanes. -/
def execMrg4 (s : State) : Out :=
  need .h s.h fun h =>
  need .v4 s.v4 fun v4 =>
    .next (((s.setH (update h v4)).dropLanes).goTo .addlen)

/-- `SSEED` (R146). -/
def execSseed (s : State) : Out :=
  need .seed s.seed fun seed =>
    .next ((s.setH (seed + P5)).goTo .addlen)

/-- `ADDLEN` (R147): all 64 bits of LEN, the total length. -/
def execAddlen (s : State) : Out :=
  need .h s.h fun h =>
  need .len s.len fun len =>
  need .rem s.rem fun rem =>
    .next ((s.setH (h + len)).goTo (nextTail rem))

/-- `T8` (R148). -/
def execT8 (s : State) : Out :=
  need .h s.h fun h =>
  need .ptr s.ptr fun ptr =>
  need .rem s.rem fun rem =>
  withTailWord s ptr fun w =>
    .next (((s.setH (tail8 h w)).consume ptr rem 8#64).goTo (nextTail (rem - 8#64)))

/-- `T4` (R149). -/
def execT4 (s : State) : Out :=
  need .h s.h fun h =>
  need .ptr s.ptr fun ptr =>
  need .rem s.rem fun rem =>
  withView s ptr.toNat 4 fun w =>
    .next (((s.setH (tail4 h w)).consume ptr rem 4#64).goTo (nextTail (rem - 4#64)))

/-- `T1` (R150). -/
def execT1 (s : State) : Out :=
  need .h s.h fun h =>
  need .ptr s.ptr fun ptr =>
  need .rem s.rem fun rem =>
  withView s ptr.toNat 1 fun b =>
    .next (((s.setH (tail1 h b)).consume ptr rem 1#64).goTo (nextTail (rem - 1#64)))

end Sys2Proof.Machine
end

