-- ==== Sys2Proof/Machine/Result.lean ====
section
/-! DEFINITION. The final avalanche and the delivery of the digest: AVAL, RET. -/

namespace Sys2Proof.Machine

/-- `AVAL` (R161): the five stages in one step. -/
def execAval (s : State) : Out :=
  need .h s.h fun h =>
    .next ((s.setH (avalanche h)).goTo .ret)

/-- `RET` (R168). -/
def execRet (s : State) : Out :=
  need .h s.h fun h =>
    .next ((((s.setDone h).emit (.ok h)).dropH).goTo .idle)

end Sys2Proof.Machine
end

