-- ==== Sys2Proof/Machine/Dispatch.lean ====
section
/-! DEFINITION. The meaning of every instruction: one arm per constructor of Instr. -/

namespace Sys2Proof.Machine

def exec (i : Instr) (s : State) : Host.Outcome State Fault Refusal :=
  match i with
  -- host commands
  | .hash seed offset length => Sys2Proof.Machine.execHash seed offset length s
  | .hashv value => Sys2Proof.Machine.execHashv value s
  -- sequencer
  | .accept => Sys2Proof.Machine.execAccept s
  | .check => Sys2Proof.Machine.execCheck s
  -- block accumulator
  | .linit => Sys2Proof.Machine.execLinit s
  | .blk => Sys2Proof.Machine.execBlk s
  -- finalizer
  | .fold => Sys2Proof.Machine.execFold s
  | .mrg1 => Sys2Proof.Machine.execMrg1 s
  | .mrg2 => Sys2Proof.Machine.execMrg2 s
  | .mrg3 => Sys2Proof.Machine.execMrg3 s
  | .mrg4 => Sys2Proof.Machine.execMrg4 s
  | .sseed => Sys2Proof.Machine.execSseed s
  | .addlen => Sys2Proof.Machine.execAddlen s
  | .t8 => Sys2Proof.Machine.execT8 s
  | .t4 => Sys2Proof.Machine.execT4 s
  | .t1 => Sys2Proof.Machine.execT1 s
  | .aval => Sys2Proof.Machine.execAval s
  | .ret => Sys2Proof.Machine.execRet s

end Sys2Proof.Machine
end

