-- ==== Sys2Proof/Machine/Step.lean ====
section
/-! DEFINITION. One step of the engine: the micro-operation PHASE selects (R100). -/

namespace Sys2Proof.Machine

/-- One step: the micro-operation selected by PHASE is fetched and performed (R21, R100). -/
def step (s : State) : Host.Outcome State Fault Refusal := exec s.fetch s

/-- The state in which the next step runs the given instruction, numbered as the opcode table numbers it (log
entry 8). A micro-operation is placed by its PHASE code, and a register it reads that holds `⊥` gets a value; a command
is placed in the CMD slot of the idle engine. -/
def State.withFetchWord (s : State) (nbits w : Nat) : State :=
  if nbits ≤ 8 then
    (s.operandsFor (Phase.ofCode (BitVec.ofNat 4 w))).goTo (Phase.ofCode (BitVec.ofNat 4 w))
  else { s with phase := .idle, cmd := some (BitVec.ofNat 256 w) }

end Sys2Proof.Machine
end

