-- ==== Sys2Proof/Machine/HostPort.lean ====
section
/-! DEFINITION. The host's moves, exactly those of R115, and the runs in which the engine's steps and the host's moves
interleave. A move the rules do not allow in a state answers `none`: it is refused (U2, U3). -/

namespace Sys2Proof.Machine

/-- Reset (R190, R192): every register takes the value of R33, a waiting or running command is abandoned without a
response; the view is not affected and the responses already emitted stay emitted. -/
def State.assertReset (s : State) : State :=
  { State.resetWith s.view s.viewLen with resp := s.resp }

/-- Presenting a descriptor fills an empty slot, at any time; a full slot cannot be replaced (R28, R115, R196). -/
def State.present (c : Descriptor) (s : State) : Option State :=
  match s.cmd with
  | none => some { s with cmd := some c }
  | some _ => none

/-- The host's read of `DIGEST`: defined only when DONE = 1 (R27, R199, U2). -/
def State.readDigest (s : State) : Option Word :=
  if s.done then s.digest else none

/-- The host's read of `ERRCODE`, at any time (R26, R115). -/
def State.readErrcode (s : State) : BitVec 8 := s.errcode

/-- The host's read of `RESP` (R29, R115). -/
def State.readResp (s : State) : List Response := s.resp

/-- Whether a `HASH` waits in the slot. -/
def State.hashWaiting (s : State) : Bool :=
  match s.cmd with
  | none => false
  | some c =>
    match decodeCommand c with
    | .instr (.hash _ _ _) => true
    | _ => false

/-- Whether a `HASH` is in execution. -/
def State.hashRunning (s : State) : Bool := s.busy && s.imm != some true

/-- The host may write the view only while no `HASH` waits or runs (R115 item 6, R197, log entry 9). -/
def State.viewWritable (s : State) : Bool := !s.hashWaiting && !s.hashRunning

/-- A host's write of one byte inside the view. -/
def State.writeView (a : Nat) (b : Byte) (s : State) : Option State :=
  if s.viewWritable && decide (a < s.viewLen) then some { s with view := s.view.write a b } else none

/-- The host makes the view hold exactly the given bytes, so VIEW_LEN is their count (R8, R107). -/
def State.placeView (bytes : List Byte) (s : State) : Option State :=
  if s.viewWritable && decide (bytes.length ≤ Config.maxViewLen) then
    some { s with view := Memory.ofBytesFrom 0 bytes, viewLen := bytes.length }
  else none

/-- The host's moves that change state (R115 items 1, 5, 6). -/
inductive HostMove where
  | present (c : Descriptor)
  | reset
  | writeView (a : Nat) (b : Byte)
  | placeView (bytes : List Byte)
  deriving DecidableEq, Repr

/-- A host move, `none` where it is not possible. -/
def hostMove : HostMove → State → Option State
  | .present c, s => s.present c
  | .reset, s => some s.assertReset
  | .writeView a b, s => s.writeView a b
  | .placeView bytes, s => s.placeView bytes

/-- A command has been consumed at this step: PHASE is `IDLE` and the slot is full (R101). -/
def State.consumesCommand (s : State) : Bool := decide (s.phase = .idle) && s.cmd.isSome

/-- The phases of `k` steps, in order: the micro-operations performed (R70, `IDLE` being written `ACCEPT`). -/
def phasesOf : Nat → State → List Phase
  | 0, _ => []
  | k + 1, s =>
    s.phase ::
      match step s with
      | .next t => phasesOf k t
      | .fault _ => []
      | .refused _ => []

end Sys2Proof.Machine
end

