-- ==== Sys2Proof/Machine/Assembler.lean ====
section
/-! DEFINITION. The assembler: command lines (R68), the pseudo-commands' expansion (R69, R106, R107), trace names (R70).
Text is a list of characters. -/

namespace Sys2Proof.Machine

/-- The one command an assembler command stands for, given the host's knowledge of VIEW_LEN (R69, R106). For `HASHT` the
view holds exactly the text's bytes, so VIEW_LEN is their count (R107). -/
def Asm.expand (viewLen : Nat) : Asm → Instr
  | .hash seed offset length => .hash (BitVec.ofNat 64 seed) (BitVec.ofNat 64 offset) (BitVec.ofNat 64 length)
  | .hashv value => .hashv (BitVec.ofNat 64 value)
  | .hashd => .hash 0 0 (BitVec.ofNat 64 viewLen)
  | .hashs seed => .hash (BitVec.ofNat 64 seed) 0 (BitVec.ofNat 64 viewLen)
  | .hasht text => .hash 0 0 (BitVec.ofNat 64 text.length)

/-- The descriptor of an assembler command, `none` if it is not well formed. -/
def Asm.assemble (viewLen : Nat) (a : Asm) : Option Descriptor :=
  if Asm.wellFormed a then
    match encode (Asm.expand viewLen a) with
    | .command c => some c
    | .micro _ => none
  else none

/-- Host software issuing an assembler command: for `HASHT` it first places the bytes (R107), then the descriptor is
presented. -/
def State.issue (a : Asm) (s : State) : Option State :=
  match a with
  | .hasht text => (s.placeView text).bind fun t => (Asm.assemble t.viewLen a).bind t.present
  | _ => (Asm.assemble s.viewLen a).bind s.present

/-! ### Lines of text (R68) -/

/-- The line without its comment. -/
def dropComment (l : List Char) : List Char := l.takeWhile fun c => c != ';'

/-- Whether a character is blank. -/
def isBlank (c : Char) : Bool := c == ' ' || c == '\t'

/-- Blanks removed at both ends. -/
def trimBlanks (l : List Char) : List Char :=
  ((l.dropWhile isBlank).reverse.dropWhile isBlank).reverse

/-- The pieces between commas. -/
def splitCommas : List Char → List (List Char)
  | [] => [[]]
  | c :: cs =>
    if c = ',' then [] :: splitCommas cs
    else
      match splitCommas cs with
      | [] => [[c]]
      | p :: ps => (c :: p) :: ps

/-- The value of a digit in the given base, 10 or 16. -/
def digitOf (base : Nat) (c : Char) : Option Nat :=
  let n := c.toNat
  let v := if 48 ≤ n ∧ n ≤ 57 then n - 48
    else if 65 ≤ n ∧ n ≤ 70 then n - 55
    else if 97 ≤ n ∧ n ≤ 102 then n - 87
    else base
  if v < base then some v else none

/-- A non-empty run of digits, most significant first, after the value read so far. -/
def digitsFrom (base : Nat) : Nat → List Char → Option Nat
  | acc, [] => some acc
  | acc, c :: cs =>
    match digitOf base c with
    | none => none
    | some d => digitsFrom base (acc * base + d) cs

/-- A number: decimal, or hexadecimal after `0x` (R68). -/
def parseNumber : List Char → Option Nat
  | '0' :: 'x' :: c :: cs => digitsFrom 16 0 (c :: cs)
  | c :: cs => digitsFrom 10 0 (c :: cs)
  | [] => none

/-- The operands of a line: numbers separated by commas. -/
def parseOperands (l : List Char) : Option (List Nat) :=
  (splitCommas l).mapM fun p => parseNumber (trimBlanks p)

/-- A mnemonic, in upper case, with its operand text (R68). `HASHT` takes bytes, not text, and has no line form here
(U12, log entry 12). -/
def parseCommand (mnemonic operands : List Char) : Option Asm :=
  if mnemonic = ['H', 'A', 'S', 'H'] then
    match parseOperands operands with
    | some [seed, offset, length] => some (.hash seed offset length)
    | _ => none
  else if mnemonic = ['H', 'A', 'S', 'H', 'V'] then
    match parseOperands operands with
    | some [value] => some (.hashv value)
    | _ => none
  else if mnemonic = ['H', 'A', 'S', 'H', 'D'] then
    if trimBlanks operands = [] then some .hashd else none
  else if mnemonic = ['H', 'A', 'S', 'H', 'S'] then
    match parseOperands operands with
    | some [seed] => some (.hashs seed)
    | _ => none
  else none

/-- One line of a host program: no command (blank or comment only), or one command; `none` if it is neither. -/
def parseLine (l : List Char) : Option (Option Asm) :=
  let body := trimBlanks (dropComment l)
  if body = [] then some none
  else (parseCommand (body.takeWhile fun c => !isBlank c) (body.dropWhile fun c => !isBlank c)).map some

/-- A host program, one command per line. -/
def parseProgram (lines : List (List Char)) : Option (List Asm) :=
  (lines.mapM parseLine).map fun cs => cs.filterMap id

/-- The name a trace writes for a phase: the micro-operation's, `ACCEPT` for `IDLE` (R70). -/
def Phase.traceName : Phase → String
  | .idle => "ACCEPT"
  | .check => "CHECK"
  | .linit => "LINIT"
  | .blk => "BLK"
  | .fold => "FOLD"
  | .mrg1 => "MRG1"
  | .mrg2 => "MRG2"
  | .mrg3 => "MRG3"
  | .mrg4 => "MRG4"
  | .sseed => "SSEED"
  | .addlen => "ADDLEN"
  | .t8 => "T8"
  | .t4 => "T4"
  | .t1 => "T1"
  | .aval => "AVAL"
  | .ret => "RET"

end Sys2Proof.Machine
end

