-- ==== Sys2Proof/Machine/ClosedForm.lean ====
section
/-! DEFINITION. The function computed, in closed form (R112), and the trace of a command (R113), written apart from
the step machine, for claims about it. -/

namespace Sys2Proof.Machine

/-- The four lane accumulators as one value. -/
structure Lanes where
  v1 : Word
  v2 : Word
  v3 : Word
  v4 : Word
  deriving DecidableEq, Repr

/-- The lanes before the first block (R112). -/
def Lanes.init (s : Word) : Lanes := ⟨s + P1 + P2, s + P2, s, s - P1⟩

/-- The block loop of R112 for a number of blocks, over the bytes `b` from index `p` on. -/
def blockLoop (b : Nat → Byte) : Nat → Nat → Lanes → Lanes
  | 0, _, l => l
  | q + 1, p, l =>
    blockLoop b q (p + 32)
      ⟨mix l.v1 (leWord b p 8), mix l.v2 (leWord b (p + 8) 8),
       mix l.v3 (leWord b (p + 16) 8), mix l.v4 (leWord b (p + 24) 8)⟩

/-- Fold and the four merges, in lane order (R112, R141 to R145). -/
def mergeLanes (l : Lanes) : Word :=
  update (update (update (update (foldLanes l.v1 l.v2 l.v3 l.v4) l.v1) l.v2) l.v3) l.v4

/-- The 8-byte tail steps. -/
def tail8Loop (b : Nat → Byte) : Nat → Nat → Word → Word
  | 0, _, h => h
  | n + 1, p, h => tail8Loop b n (p + 8) (tail8 h (leWord b p 8))

/-- The 1-byte tail steps. -/
def tail1Loop (b : Nat → Byte) : Nat → Nat → Word → Word
  | 0, _, h => h
  | n + 1, p, h => tail1Loop b n (p + 1) (tail1 h (leWord b p 1))

/-- Numbers of tail steps for a remaining count (R113, R151). -/
def t8Count (r : Nat) : Nat := r / 8
def t4Count (r : Nat) : Nat := if 4 ≤ r % 8 then 1 else 0
def t1Count (r : Nat) : Nat := r % 4

/-- The tail over `r` bytes from index `p` on: 8-byte words, one optional 4-byte word, single bytes (R112, R151). -/
def tailLoop (b : Nat → Byte) (p r : Nat) (h : Word) : Word :=
  let h8 := tail8Loop b (t8Count r) p h
  let p4 := p + 8 * t8Count r
  if t4Count r = 1 then tail1Loop b (t1Count r) (p4 + 4) (tail4 h8 (leWord b p4 4))
  else tail1Loop b (t1Count r) p4 h8

/-- The scalar before the length is added: block path from 32 bytes on, else scalar path (R112). -/
def scalarStart (b : Nat → Byte) (s : Word) (p n : Nat) : Word :=
  if 32 ≤ n then mergeLanes (blockLoop b (n / 32) p (Lanes.init s)) else s + P5

/-- `XXH` over the `n` bytes of `b` from index `p` on. -/
def xxhFrom (b : Nat → Byte) (s : Word) (p n : Nat) : Word :=
  avalanche (tailLoop b (p + 32 * (n / 32)) (n % 32) (scalarStart b s p n + BitVec.ofNat 64 n))

/-- `XXH(s, b)` of a byte sequence (R112). -/
def xxh (s : Word) (bytes : List Byte) : Word :=
  xxhFrom (fun i => bytes.getD i 0) s 0 bytes.length

/-- The eight little-endian bytes of a word (R105). -/
def leBytes (w : Word) : List Byte := (List.range 8).map fun i => w.extractLsb' (8 * i) 8

/-- The tail's part of a trace (R113). -/
def tailTrace (r : Nat) : List Phase :=
  List.replicate (t8Count r) .t8 ++ List.replicate (t4Count r) .t4 ++ List.replicate (t1Count r) .t1

/-- The trace of an accepted `HASH` of `n` bytes that passes `CHECK` (R113), `IDLE` standing for `ACCEPT`. -/
def hashTrace (n : Nat) : List Phase :=
  [.idle, .check] ++
    (if 32 ≤ n then
      [.linit] ++ List.replicate (n / 32) .blk ++ [.fold, .mrg1, .mrg2, .mrg3, .mrg4]
    else [.sseed]) ++
    [.addlen] ++ tailTrace (n % 32) ++ [.aval, .ret]

/-- The transition table of R111, row by row: the phase after the step taken in `s`. A latch that holds `⊥` counts as
zero here; where the table reads a latch, no sound state has one. -/
def tableNext (s : State) : Phase :=
  let rem := (s.rem.getD 0).toNat
  let len := (s.len.getD 0).toNat
  let ptr := (s.ptr.getD 0).toNat
  let tailFrom (r : Nat) : Phase :=
    if r ≥ 8 then .t8 else if r ≥ 4 then .t4 else if r ≥ 1 then .t1 else .aval
  match s.phase with
  | .idle =>
    match s.cmd with
    | none => .idle
    | some c =>
      match decodeCommand c with
      | .instr (.hash _ _ _) => .check
      | .instr (.hashv _) => .sseed
      | _ => .idle
  | .check => if ptr + len > s.viewLen then .idle else if len ≥ 32 then .linit else .sseed
  | .linit => .blk
  | .blk => if rem - 32 ≥ 32 then .blk else .fold
  | .fold => .mrg1
  | .mrg1 => .mrg2
  | .mrg2 => .mrg3
  | .mrg3 => .mrg4
  | .mrg4 => .addlen
  | .sseed => .addlen
  | .addlen => tailFrom rem
  | .t8 => tailFrom (rem - 8)
  | .t4 => tailFrom (rem - 4)
  | .t1 => tailFrom (rem - 1)
  | .aval => .ret
  | .ret => .idle

/-- The trace of a `HASHV` (R113). -/
def hashvTrace : List Phase := [.idle, .sseed, .addlen, .t8, .aval, .ret]

end Sys2Proof.Machine
end

