-- ==== Sys2Proof/Machine/System.lean ====
section
/-! DEFINITION. `N_ENGINES` independent engine instances (R8, R183): a list of engine states, of which one instance
takes a step or a host move at a time. Instances may be given the same view; the engine only reads it. -/

namespace Sys2Proof.Machine

/-- The engines of a system; their number is `N_ENGINES`. -/
structure System where
  engines : List State
  deriving DecidableEq, Repr

/-- `N_ENGINES >= 1` (R8). -/
def System.wf (y : System) : Bool := !y.engines.isEmpty

/-- Instance `k` takes one step, the others do not move; `none` if there is no such instance. -/
def System.stepEngine (k : Nat) (y : System) : Option (Host.Outcome System Fault Refusal) :=
  match y.engines[k]? with
  | none => none
  | some s =>
    match step s with
    | .next t => some (.next ⟨y.engines.set k t⟩)
    | .fault f => some (.fault f)
    | .refused r => some (.refused r)

/-- A host move on instance `k`. -/
def System.hostMove (k : Nat) (m : HostMove) (y : System) : Option System :=
  match y.engines[k]? with
  | none => none
  | some s =>
    match Machine.hostMove m s with
    | none => none
    | some t => some ⟨y.engines.set k t⟩

end Sys2Proof.Machine
end

