-- ==== Sys2Proof/Safety.lean ====
section
/-! DEFINITION. What a sound state is (the invariants of R31, with what makes them inductive), what reachable means,
and runs, in the terms claims use. -/

namespace Sys2Proof.Machine

/-! ### The invariants of R31, item by item -/

/-- R31 item 1. -/
abbrev BusyMatchesPhase (s : State) : Prop := s.busy = true ↔ s.phase ≠ .idle

/-- R31 item 2. -/
abbrev FlagsExclusive (s : State) : Prop :=
  ¬(s.done = true ∧ s.err = true) ∧ (s.busy = true → s.done = false ∧ s.err = false)

/-- R31 item 3. -/
abbrev ResultMatchesFlags (s : State) : Prop :=
  (s.digest.isSome = true ↔ s.done = true) ∧ (s.errcode ≠ 0#8 ↔ s.err = true)

/-- All four lanes hold `⊥`. -/
abbrev LanesEmpty (s : State) : Prop := s.v1 = none ∧ s.v2 = none ∧ s.v3 = none ∧ s.v4 = none

/-- All four lanes hold values. -/
abbrev LanesLive (s : State) : Prop :=
  s.v1.isSome = true ∧ s.v2.isSome = true ∧ s.v3.isSome = true ∧ s.v4.isSome = true

/-- The phases in which the lanes hold values: `BLK`, `FOLD`, `MRG1` to `MRG4` (R31 item 5). -/
def Phase.lanesLive : Phase → Bool
  | .blk | .fold | .mrg1 | .mrg2 | .mrg3 | .mrg4 => true
  | _ => false

/-- The phases in which `H` holds a value (R31 item 5). -/
def Phase.hLive : Phase → Bool
  | .mrg1 | .mrg2 | .mrg3 | .mrg4 | .addlen | .t8 | .t4 | .t1 | .aval | .ret => true
  | _ => false

/-- R31 items 4 and 5, and the lifetimes of R12 and R13 between them: lanes and `H` hold values in exactly these
phases. -/
abbrev AccumulatorLifetime (s : State) : Prop :=
  (if Phase.lanesLive s.phase then LanesLive s else LanesEmpty s) ∧
    (s.h.isSome = Phase.hLive s.phase)

/-- What the remaining count is in each phase (R31 item 7, R108, R109, R110, R147); before the first consuming step it
equals the length. -/
def remFits (p : Phase) (len rem : Nat) : Bool :=
  match p with
  | .idle => true
  | .check => decide (rem = len)
  | .linit => decide (rem = len) && decide (32 ≤ rem)
  | .blk => decide (32 ≤ rem)
  | .fold | .mrg1 | .mrg2 | .mrg3 | .mrg4 => decide (rem < 32)
  | .sseed => decide (rem = len) && decide (rem < 32)
  | .addlen => decide (rem < 32)
  | .t8 => decide (8 ≤ rem) && decide (rem < 32)
  | .t4 => decide (4 ≤ rem) && decide (rem < 8)
  | .t1 => decide (1 ≤ rem) && decide (rem < 4)
  | .aval | .ret => decide (rem = 0)

/-- The phases of a `HASHV` command after `ACCEPT` (R113). -/
def Phase.ofHashv : Phase → Bool
  | .sseed | .addlen | .t8 | .aval | .ret => true
  | _ => false

/-- The operand latches of a command in execution: every latch a later micro-operation reads holds a value; for a
`HASH` past `CHECK` what is left lies inside the view (R31 items 6 and 7); a `HASHV` has its word and length 8 (R104). -/
def latchesFit (s : State) : Bool :=
  match s.seed, s.len, s.ptr, s.rem, s.imm with
  | some _, some len, some ptr, some rem, some imm =>
    remFits s.phase len.toNat rem.toNat && decide (rem.toNat ≤ len.toNat) &&
      (if imm then
        s.val.isSome && Phase.ofHashv s.phase && (len == 8#64) && (rem == 8#64 || rem == 0#64) && decide (s.phase = .t8 → rem = 8#64)
          && decide (s.phase = .addlen → rem = 8#64) && decide (s.phase = .sseed → s.seed = some 0#64)
      else
        s.val.isNone &&
          (decide (s.phase = .check) || decide (ptr.toNat + rem.toNat ≤ s.viewLen)))
  | _, _, _, _, _ => false

/-- R31 items 6 and 7: while a command is in execution its latches fit its phase. -/
abbrev LatchesFit (s : State) : Prop := s.phase ≠ .idle → latchesFit s = true

/-- The view is in canonical form and its length satisfies the constraint of R8. -/
abbrev ViewFits (s : State) : Prop := Memory.wf s.viewLen s.view = true ∧ s.viewLen ≤ Config.maxViewLen

/-- The invariant of every reachable state: R31, item by item, over a view that satisfies R8. -/
structure Inv (s : State) : Prop where
  busy : BusyMatchesPhase s
  flags : FlagsExclusive s
  result : ResultMatchesFlags s
  lifetime : AccumulatorLifetime s
  latches : LatchesFit s
  view : ViewFits s

/-! ### Reachability and runs -/

/-- The states reachable from reset, over any view that satisfies R8, by the engine's steps and the host's moves in any
order (R100, R115). -/
inductive Reachable : State → Prop where
  | reset (view : Memory) (viewLen : Nat) (hm : Memory.wf viewLen view = true) (hl : viewLen ≤ Config.maxViewLen) :
      Reachable (State.resetWith view viewLen)
  | engine (s t : State) (h : Reachable s) (e : step s = .next t) : Reachable t
  | host (m : HostMove) (s t : State) (h : Reachable s) (e : hostMove m s = some t) : Reachable t

/-- `k` steps of the engine with no host move in between, ending at the first stop; equal to the host's own
`Host.Core.run` (`runs_eq_core_run`). -/
def runs : Nat → State → Out
  | 0, s => .next s
  | k + 1, s =>
    match step s with
    | .next t => runs k t
    | .fault f => .fault f
    | .refused r => .refused r

/-- `k` steps from `s` lead to `t`. -/
abbrev RunsTo (k : Nat) (s t : State) : Prop := runs k s = .next t

/-- Commands consumed less responses owed, as a count kept in the state: responses emitted, plus one for a command in
execution (R31 item 8). -/
def State.consumedCount (s : State) : Nat := s.resp.length + s.busy.toNat

/-- Whether a register holds `⊥` (R9). -/
def State.isBottom (s : State) : Reg → Bool
  | .v1 => s.v1.isNone
  | .v2 => s.v2.isNone
  | .v3 => s.v3.isNone
  | .v4 => s.v4.isNone
  | .h => s.h.isNone
  | .seed => s.seed.isNone
  | .len => s.len.isNone
  | .ptr => s.ptr.isNone
  | .rem => s.rem.isNone
  | .val => s.val.isNone
  | .imm => s.imm.isNone

/-- The state over another view: the registers R10 lists stay. -/
def State.withView (s : State) (view : Memory) : State := { s with view := view }

/-- An outcome with its next state, if any, over another view. -/
def outWithView (o : Out) (view : Memory) : Out :=
  match o with
  | .next t => .next (t.withView view)
  | .fault f => .fault f
  | .refused r => .refused r

end Sys2Proof.Machine
end

