-- ==== Sys2Proof/Certificates/Slice0/Obligations.lean ====
section
/-! DEFINITION. The statements about the model, one `Prop` each; the rules they formalise are in OBLIGATIONS.json. -/

open Sys2Proof Sys2Proof.Machine

/-! ### Encoding -/

/-- R60, R63, R67: encoding then decoding gives the instruction back; every HASH descriptor and every PHASE code is the
encoding of what it decodes to; a HASHV descriptor agrees with its encoding on all bits but the ignored `W2`, `W3`. -/
def Obligations.DecodeEncodeRoundTrip : Prop :=
  (∀ i : Instr, Instr.wellFormed i = true → decode (encode i) = .instr i) ∧
  (∀ (c : Descriptor) (seed offset length : Word),
    decodeCommand c = .instr (.hash seed offset length) →
      encode (.hash seed offset length) = .command c) ∧
  (∀ (c : Descriptor) (value : Word),
    decodeCommand c = .instr (.hashv value) →
      ∃ w2 w3 : Word, c = descriptor w3 w2 value 0x02) ∧
  (∀ code : BitVec 4, encode (decodeMicro code) = .micro code)

/-- R67: decode of format C by the fields' arithmetic, total; decode of format U by the table of R66. -/
def Obligations.DecodeFollowsFieldTests : Prop :=
  (∀ c : Descriptor,
    (c.toNat / 2 ^ 8 % 2 ^ 56 ≠ 0 → ∃ why, decodeCommand c = .illegal why) ∧
    (c.toNat % 2 ^ 64 = 0x01 →
      decodeCommand c = .instr (.hash (BitVec.ofNat 64 (c.toNat / 2 ^ 64))
        (BitVec.ofNat 64 (c.toNat / 2 ^ 128)) (BitVec.ofNat 64 (c.toNat / 2 ^ 192)))) ∧
    (c.toNat % 2 ^ 64 = 0x02 → decodeCommand c = .instr (.hashv (BitVec.ofNat 64 (c.toNat / 2 ^ 64)))) ∧
    (c.toNat % 2 ^ 64 ≠ 0x01 → c.toNat % 2 ^ 64 ≠ 0x02 → ∃ why, decodeCommand c = .illegal why)) ∧
  (List.range 16).map (fun n => decodeMicro (BitVec.ofNat 4 n)) =
    [.accept, .check, .linit, .blk, .fold, .mrg1, .mrg2, .mrg3, .mrg4, .sseed, .addlen, .t8, .t4, .t1, .aval, .ret]

/-- Words written out from R66, R68 and the programs of 95 and 96. -/
def Obligations.DecodeSanityWords : Prop :=
  decodeCommand 0x000000000000000D00000000000000000123456789ABCDEF0000000000000001
    = .instr (.hash 0x0123456789ABCDEF 0 13) ∧
  decodeCommand 0xFFFFFFFFFFFFFFFFFFFFFFFFFFFFFFFF0123456789ABCDEF0000000000000002
    = .instr (.hashv 0x0123456789ABCDEF) ∧
  decodeCommand 0x0000000000000000000000000000000000000000000000000000000000000101 = .illegal (.reserved 1) ∧
  decodeCommand 0x0000000000000003000000000000000200000000000000010000000000000003 = .illegal (.opcode 0x03) ∧
  decodeMicro 0x3 = .blk ∧ decodeMicro 0xB = .t8 ∧ decodeMicro 0xE = .aval

/-! ### A step runs the selected instruction -/

/-- R100, R66: a step performs the micro-operation PHASE selects; in IDLE with a pending legal command it performs that
command's acceptance; with an empty slot it changes nothing. -/
def Obligations.StepRunsSelectedInstruction : Prop :=
  (∀ s : State, decode (.micro s.phase.code) = .instr s.phase.instr ∧ step s = exec s.phase.instr s) ∧
  (∀ (s : State) (c : Descriptor) (i : Instr), s.phase = .idle → s.cmd = some c → decodeCommand c = .instr i →
    step s = exec i s) ∧
  (∀ s : State, s.phase = .idle → s.cmd = none → step s = .next s)

/-- Placing an instruction with `withFetchWord` makes the next step run it (log entry 8). -/
def Obligations.FetchWordRunsNext : Prop :=
  (∀ (s : State) (w : Nat), w < 16 →
    ∃ i, decodeTableWord 8 w = some i ∧ step (s.withFetchWord 8 w) = exec i (s.withFetchWord 8 w)) ∧
  (∀ (s : State) (w : Nat) (i : Instr), decodeTableWord 256 w = some i →
    step (s.withFetchWord 256 w) = exec i (s.withFetchWord 256 w))

/-! ### What each instruction does -/

/-- R102, R103: the registers after the acceptance of a HASH. That the instruction `hash` is taken in IDLE without looking
at the slot (R102: CMD not empty and decoding to it) is the model's choice, log entry 5; `AcceptTakesPendingCommand` has
the slot. -/
def Obligations.HashLatchesOperands : Prop :=
  ∀ (s : State) (seed offset length : Word), s.phase = .idle →
    exec (.hash seed offset length) s = .next
      { s with
        cmd := none, done := false, err := false, errcode := 0x00, digest := none,
        seed := some seed, len := some length, ptr := some offset, rem := some length,
        val := none, imm := some false, busy := true, phase := .check }

/-- R102, R104: the registers after the acceptance of a HASHV; SEED is 0, LEN and REM are 8, CHECK is skipped. That the
instruction `hashv` is taken in IDLE without looking at the slot (R102: CMD not empty and decoding to it) is the model's
choice, log entry 5; `AcceptTakesPendingCommand` has the slot. -/
def Obligations.HashvLatchesValue : Prop :=
  ∀ (s : State) (value : Word), s.phase = .idle →
    exec (.hashv value) s = .next
      { s with
        cmd := none, done := false, err := false, errcode := 0x00, digest := none,
        seed := some 0, len := some 8, ptr := some 0, rem := some 8,
        val := some value, imm := some true, busy := true, phase := .sseed }

/-- R102: ACCEPT of a HASH, of a HASHV, and of an illegal descriptor. -/
def Obligations.AcceptTakesPendingCommand : Prop :=
  ∀ (s : State) (c : Descriptor), s.phase = .idle → s.cmd = some c →
    (∀ seed offset length : Word, decodeCommand c = .instr (.hash seed offset length) →
      exec .accept s = .next
        { s with
          cmd := none, done := false, err := false, errcode := 0x00, digest := none,
          seed := some seed, len := some length, ptr := some offset, rem := some length,
          val := none, imm := some false, busy := true, phase := .check }) ∧
    (∀ value : Word, decodeCommand c = .instr (.hashv value) →
      exec .accept s = .next
        { s with
          cmd := none, done := false, err := false, errcode := 0x00, digest := none,
          seed := some 0, len := some 8, ptr := some 0, rem := some 8,
          val := some value, imm := some true, busy := true, phase := .sseed }) ∧
    (∀ why : Illegal, decodeCommand c = .illegal why →
      exec .accept s = .next
        { s with
          cmd := none, done := false, err := true, errcode := 0x02, digest := none, busy := false,
          resp := s.resp ++ [.err 0x02], phase := .idle })

/-- R65, R172, R174: an OPC outside 0x01, 0x02, or a non-zero RSV0, raises ILLEGAL_CMD at ACCEPT; nothing else is
written. -/
def Obligations.IllegalDescriptorRaises : Prop :=
  ∀ (s : State) (c : Descriptor), s.phase = .idle → s.cmd = some c →
    (c.toNat % 2 ^ 8 ≠ 0x01 ∧ c.toNat % 2 ^ 8 ≠ 0x02 ∨ c.toNat / 2 ^ 8 % 2 ^ 56 ≠ 0) →
      step s = .next
        { s with
          cmd := none, done := false, err := true, errcode := 0x02, digest := none, busy := false,
          resp := s.resp ++ [.err 0x02], phase := .idle }

/-- R101, R28: outside IDLE no instruction consumes the pending command; HASH, HASHV and ACCEPT then change nothing
(that they complete there is the model's choice, log entry 4). -/
def Obligations.PendingCommandIsHeld : Prop :=
  (∀ (i : Instr) (s t : State), s.phase ≠ .idle → exec i s = .next t → t.cmd = s.cmd) ∧
  (∀ (s : State) (seed offset length value : Word), s.phase ≠ .idle →
    exec (.hash seed offset length) s = .next s ∧ exec (.hashv value) s = .next s ∧ exec .accept s = .next s)

/-- R108: CHECK raises BOUNDS on a negative operand or an unwrapped sum above VIEW_LEN; else it selects the path. -/
def Obligations.CheckTestsBoundsAndSelectsPath : Prop :=
  ∀ (s : State) (ptr len : Word), s.ptr = some ptr → s.len = some len →
    ((ptr.getLsbD 63 = true ∨ len.getLsbD 63 = true ∨ ptr.toNat + len.toNat > s.viewLen) →
      exec .check s = .next
        { s with
          err := true, errcode := 0x01, done := false, digest := none, busy := false,
          resp := s.resp ++ [.err 0x01], phase := .idle }) ∧
    (ptr.getLsbD 63 = false → len.getLsbD 63 = false → ptr.toNat + len.toNat ≤ s.viewLen →
      (len.toNat ≥ 32 → exec .check s = .next { s with phase := .linit }) ∧
      (len.toNat < 32 → exec .check s = .next { s with phase := .sseed }))

/-- R131: LINIT, with the four offsets of the rule. -/
def Obligations.LinitSeedsLanes : Prop :=
  ∀ (s : State) (seed : Word), s.seed = some seed →
    exec .linit s = .next
      { s with
        v1 := some (seed + 0x60EA27EEADC0B5D6), v2 := some (seed + 0xC2B2AE3D27D4EB4F),
        v3 := some seed, v4 := some (seed + 0x61C8864E7A143579), phase := .blk }

/-- R132: BLK, with REM at least 32 and the block inside the view. -/
def Obligations.BlkMixesOneBlock : Prop :=
  ∀ (s : State) (v1 v2 v3 v4 ptr rem : Word),
    s.v1 = some v1 → s.v2 = some v2 → s.v3 = some v3 → s.v4 = some v4 → s.ptr = some ptr → s.rem = some rem →
    32 ≤ rem.toNat → ptr.toNat + 32 ≤ s.viewLen →
    exec .blk s = .next
      { s with
        v1 := some (mix v1 (leWord s.view.byteAt ptr.toNat 8)),
        v2 := some (mix v2 (leWord s.view.byteAt (ptr.toNat + 8) 8)),
        v3 := some (mix v3 (leWord s.view.byteAt (ptr.toNat + 16) 8)),
        v4 := some (mix v4 (leWord s.view.byteAt (ptr.toNat + 24) 8)),
        ptr := some (ptr + 32), rem := some (rem - 32),
        phase := if rem.toNat - 32 ≥ 32 then .blk else .fold }

/-- R141: FOLD, whatever `H` holds. -/
def Obligations.FoldAddsRotatedLanes : Prop :=
  ∀ (s : State) (v1 v2 v3 v4 : Word),
    s.v1 = some v1 → s.v2 = some v2 → s.v3 = some v3 → s.v4 = some v4 →
    exec .fold s = .next
      { s with
        h := some (v1.rotateLeft 1 + v2.rotateLeft 7 + v3.rotateLeft 12 + v4.rotateLeft 18), phase := .mrg1 }

/-- R142 to R145: the four merges in lane order; the last one destroys the lanes (R12, R145, which the spec decides in
D26). -/
def Obligations.MergesUpdateWithLanes : Prop :=
  ∀ (s : State) (h v : Word), s.h = some h →
    (s.v1 = some v → exec .mrg1 s = .next { s with h := some (update h v), phase := .mrg2 }) ∧
    (s.v2 = some v → exec .mrg2 s = .next { s with h := some (update h v), phase := .mrg3 }) ∧
    (s.v3 = some v → exec .mrg3 s = .next { s with h := some (update h v), phase := .mrg4 }) ∧
    (s.v4 = some v → exec .mrg4 s = .next
      { s with h := some (update h v), v1 := none, v2 := none, v3 := none, v4 := none, phase := .addlen })

/-- R146: SSEED. -/
def Obligations.SseedSetsScalar : Prop :=
  ∀ (s : State) (seed : Word), s.seed = some seed →
    exec .sseed s = .next { s with h := some (seed + 0x27D4EB2F165667C5), phase := .addlen }

/-- R147 with R110: ADDLEN adds the whole LEN and selects the tail by REM. -/
def Obligations.AddlenAddsLength : Prop :=
  ∀ (s : State) (h len rem : Word), s.h = some h → s.len = some len → s.rem = some rem →
    exec .addlen s = .next
      { s with
        h := some (h + len),
        phase := if rem.toNat ≥ 8 then .t8 else if rem.toNat ≥ 4 then .t4
          else if rem.toNat ≥ 1 then .t1 else .aval }

/-- R148 with R110: T8, from VAL for a HASHV and from the view for a HASH. -/
def Obligations.T8ConsumesWord : Prop :=
  ∀ (s : State) (h ptr rem : Word), s.h = some h → s.ptr = some ptr → s.rem = some rem → 8 ≤ rem.toNat →
    (∀ v : Word, s.imm = some true → s.val = some v →
      exec .t8 s = .next
        { s with
          h := some (tail8 h v), ptr := some (ptr + 8), rem := some (rem - 8),
          phase := if rem.toNat - 8 ≥ 8 then .t8 else if rem.toNat - 8 ≥ 4 then .t4
            else if rem.toNat - 8 ≥ 1 then .t1 else .aval }) ∧
    (s.imm = some false → ptr.toNat + 8 ≤ s.viewLen →
      exec .t8 s = .next
        { s with
          h := some (tail8 h (leWord s.view.byteAt ptr.toNat 8)), ptr := some (ptr + 8), rem := some (rem - 8),
          phase := if rem.toNat - 8 ≥ 8 then .t8 else if rem.toNat - 8 ≥ 4 then .t4
            else if rem.toNat - 8 ≥ 1 then .t1 else .aval })

/-- R149 with R110: T4, with 4 to 7 bytes left, goes to T1 or AVAL. -/
def Obligations.T4ConsumesWord : Prop :=
  ∀ (s : State) (h ptr rem : Word), s.h = some h → s.ptr = some ptr → s.rem = some rem →
    4 ≤ rem.toNat → rem.toNat < 8 → ptr.toNat + 4 ≤ s.viewLen →
    exec .t4 s = .next
      { s with
        h := some (tail4 h (leWord s.view.byteAt ptr.toNat 4)), ptr := some (ptr + 4), rem := some (rem - 4),
        phase := if rem.toNat - 4 ≥ 1 then .t1 else .aval }

/-- R150 with R110: T1, with 1 to 3 bytes left, goes to T1 or AVAL. -/
def Obligations.T1ConsumesByte : Prop :=
  ∀ (s : State) (h ptr rem : Word), s.h = some h → s.ptr = some ptr → s.rem = some rem →
    1 ≤ rem.toNat → rem.toNat < 4 → ptr.toNat + 1 ≤ s.viewLen →
    exec .t1 s = .next
      { s with
        h := some (tail1 h ((s.view.byteAt ptr.toNat).setWidth 64)), ptr := some (ptr + 1), rem := some (rem - 1),
        phase := if rem.toNat - 1 ≥ 1 then .t1 else .aval }

/-- R161 to R166: AVAL, with the five stages written out. -/
def Obligations.AvalAppliesFiveStages : Prop :=
  ∀ (s : State) (h : Word), s.h = some h →
    exec .aval s = .next
      { s with
        h := some
          (let s1 := h ^^^ (h >>> 33)
           let s2 := s1 * 0xC2B2AE3D27D4EB4F
           let s3 := s2 ^^^ (s2 >>> 29)
           let s4 := s3 * 0x165667B19E3779F9
           s4 ^^^ (s4 >>> 32)),
        phase := .ret }

/-- R168: RET delivers the digest. -/
def Obligations.RetDeliversDigest : Prop :=
  ∀ (s : State) (h : Word), s.h = some h →
    exec .ret s = .next
      { s with
        digest := some h, resp := s.resp ++ [.ok h], done := true, busy := false, h := none, phase := .idle }

/-! ### The primitives -/

/-- R87, R88, R90, R148 to R150 with the constants of R80: the expressions read in full, over the library's rotation. -/
def Obligations.PrimitivesFollowExpressions : Prop :=
  ∀ h w : Word,
    mix h w = (h + w * 0xC2B2AE3D27D4EB4F).rotateLeft 31 * 0x9E3779B185EBCA87 ∧
    update h w = (h ^^^ mix 0 w) * 0x9E3779B185EBCA87 + 0x85EBCA77C2B2AE63 ∧
    tail8 h w = (h ^^^ mix 0 w).rotateLeft 27 * 0x9E3779B185EBCA87 + 0x85EBCA77C2B2AE63 ∧
    tail4 h w = (h ^^^ (w * 0x9E3779B185EBCA87)).rotateLeft 23 * 0xC2B2AE3D27D4EB4F + 0x165667B19E3779F9 ∧
    tail1 h w = (h ^^^ (w * 0x27D4EB2F165667C5)).rotateLeft 11 * 0x9E3779B185EBCA87

/-- R83: bit i of x becomes bit (i + r) mod 64 of the result. -/
def Obligations.RotationMovesEveryBit : Prop :=
  ∀ (x : Word) (r i : Nat), 1 ≤ r → r ≤ 63 → i < 64 →
    (rotl64 x r).getLsbD ((i + r) % 64) = x.getLsbD i

/-- R80, R82: the four constants that multiply are odd, and multiplication of a word by each is a bijection on words. -/
def Obligations.OddMultiplicationBijective : Prop :=
  (P1.getLsbD 0 = true ∧ P2.getLsbD 0 = true ∧ P3.getLsbD 0 = true ∧ P5.getLsbD 0 = true) ∧
  (Function.Bijective fun x : Word => x * P1) ∧ (Function.Bijective fun x : Word => x * P2) ∧
  (Function.Bijective fun x : Word => x * P3) ∧ (Function.Bijective fun x : Word => x * P5)

/-- R88, R90, R148: mix is a bijection in either argument, update and tail8 in the accumulator. -/
def Obligations.MixingStepsBijective : Prop :=
  (∀ w : Word, Function.Bijective fun a => mix a w) ∧ (∀ a : Word, Function.Bijective fun w => mix a w) ∧
  (∀ v : Word, Function.Bijective fun h => update h v) ∧ (∀ w : Word, Function.Bijective fun h => tail8 h w)

/-- R167: each stage of the avalanche and the avalanche itself are bijections on words, and only 0 gives 0. -/
def Obligations.AvalancheBijective : Prop :=
  (Function.Bijective av1 ∧ Function.Bijective av2 ∧ Function.Bijective av3 ∧ Function.Bijective av4 ∧
    Function.Bijective av5) ∧
  Function.Bijective avalanche ∧ ∀ h : Word, avalanche h = 0 ↔ h = 0

/-- R44, R46: a read inside the view gives the little-endian sum of its bytes, at any alignment. -/
def Obligations.MemReadIsLittleEndianSum : Prop :=
  ∀ (s : State) (a n : Nat) (k : Word → Out), n = 1 ∨ n = 4 ∨ n = 8 → a + n ≤ s.viewLen →
    ∃ w : Word, withView s a n k = k w ∧
      w.toNat = ∑ i ∈ Finset.range n, (s.view.byteAt (a + i)).toNat * 2 ^ (8 * i)

/-- R45, R47: reads of different widths at one address see the same bytes, and a narrower one is zero-extended. -/
def Obligations.SubWordReadsZeroExtend : Prop :=
  ∀ (m : Memory) (a : Nat),
    leWord m.byteAt a 4 = ((leWord m.byteAt a 8).setWidth 32).setWidth 64 ∧
    leWord m.byteAt a 1 = ((leWord m.byteAt a 4).setWidth 8).setWidth 64 ∧
    leWord m.byteAt a 1 = (m.byteAt a).setWidth 64

/-! ### Frames -/

/-- R131, R132, R140 to R150, R161: the thirteen datapath micro-operations leave the latches SEED, LEN, VAL, IMM, the
status, the slot, the responses and the view alone. -/
def Obligations.DatapathFrame : Prop :=
  ∀ (i : Instr) (s t : State),
    i ∈ [Instr.linit, .blk, .fold, .mrg1, .mrg2, .mrg3, .mrg4, .sseed, .addlen, .t8, .t4, .t1, .aval] →
    exec i s = .next t →
    t.seed = s.seed ∧ t.len = s.len ∧ t.val = s.val ∧ t.imm = s.imm ∧
    t.busy = s.busy ∧ t.done = s.done ∧ t.err = s.err ∧ t.errcode = s.errcode ∧ t.digest = s.digest ∧
    t.cmd = s.cmd ∧ t.resp = s.resp ∧ t.viewLen = s.viewLen ∧ ∀ a, t.view.byteAt a = s.view.byteAt a

/-- The registers each datapath micro-operation may write: lanes by LINIT, BLK, MRG4; PTR and REM by BLK, T8, T4, T1; H
by all but LINIT and BLK. -/
def Obligations.AccumulatorFrame : Prop :=
  ∀ (i : Instr) (s t : State),
    i ∈ [Instr.linit, .blk, .fold, .mrg1, .mrg2, .mrg3, .mrg4, .sseed, .addlen, .t8, .t4, .t1, .aval] →
    exec i s = .next t →
    (i ∉ [Instr.linit, .blk, .mrg4] → t.v1 = s.v1 ∧ t.v2 = s.v2 ∧ t.v3 = s.v3 ∧ t.v4 = s.v4) ∧
    (i ∉ [Instr.blk, .t8, .t4, .t1] → t.ptr = s.ptr ∧ t.rem = s.rem) ∧
    (i = .linit ∨ i = .blk → t.h = s.h)

/-- HASH, HASHV, ACCEPT, CHECK and RET: lanes and view are never written, H only by RET; CHECK and RET keep the latches
and the slot; the accepting instructions keep the latches when the descriptor is illegal; RET keeps ERR and ERRCODE. -/
def Obligations.ControlFrame : Prop :=
  ∀ (i : Instr) (s t : State),
    ((∃ a b c, i = .hash a b c) ∨ (∃ v, i = .hashv v) ∨ i ∈ [Instr.accept, .check, .ret]) → exec i s = .next t →
    (t.v1 = s.v1 ∧ t.v2 = s.v2 ∧ t.v3 = s.v3 ∧ t.v4 = s.v4) ∧
    (i ≠ .ret → t.h = s.h) ∧
    (i = .check ∨ i = .ret ∨ t.err = true →
      t.seed = s.seed ∧ t.len = s.len ∧ t.ptr = s.ptr ∧ t.rem = s.rem ∧ t.val = s.val ∧ t.imm = s.imm) ∧
    (i = .check ∨ i = .ret → t.cmd = s.cmd) ∧
    (i = .ret → t.err = s.err ∧ t.errcode = s.errcode) ∧
    (i ≠ .ret → t.busy = true → t.resp = s.resp) ∧
    t.viewLen = s.viewLen ∧ (∀ a, t.view.byteAt a = s.view.byteAt a)

/-- R42: no instruction writes the view. -/
def Obligations.NoInstructionWritesView : Prop :=
  ∀ (i : Instr) (s t : State), exec i s = .next t → t.view = s.view ∧ t.viewLen = s.viewLen

/-- R32, R48, U6: the only stops are a read of a register that holds `⊥` and a read outside the view, each reported by
its own name (log entries 1 and 7); no instruction is refused. -/
def Obligations.StopsOnlyOnBottomOrOutsideView : Prop :=
  ∀ (i : Instr) (s : State),
    (∀ r, exec i s = .fault (.bottomRead r) → s.isBottom r = true) ∧
    (∀ a n, exec i s = .fault (.outsideView a n) →
      s.viewLen < a + n ∧ (i = .blk ∨ i = .t8 ∨ i = .t4 ∨ i = .t1)) ∧
    ∀ r, exec i s ≠ .refused r

/-! ### What an instruction's result may depend on -/

/-- R43: every micro-operation but BLK, T8, T4, T1, and T8 of a HASHV, gives the same result over any other bytes of the
view. -/
def Obligations.OtherInstructionsReadNoMemory : Prop :=
  ∀ (i : Instr) (s : State) (m : Memory),
    i ∉ [Instr.blk, .t8, .t4, .t1] ∨ (i = .t8 ∧ s.imm = some true) →
    exec i (s.withView m) = outWithView (exec i s) m

/-- R48, R50: in a sound state a step depends on no byte of the view outside the unconsumed range. -/
def Obligations.StepReadsOnlyUnconsumedBytes : Prop :=
  ∀ (s : State) (m : Memory) (ptr rem : Word), Inv s → s.ptr = some ptr → s.rem = some rem →
    (∀ a, ptr.toNat ≤ a → a < ptr.toNat + rem.toNat → m.byteAt a = s.view.byteAt a) →
    step (s.withView m) = outWithView (step s) m

/-- R11, R134: a lane after LINIT depends on the seed alone, and after BLK on that lane and its own word of the block
alone. -/
def Obligations.LanesAreIndependent : Prop :=
  (∀ s s' t t' : State, exec .linit s = .next t → exec .linit s' = .next t' → s.seed = s'.seed →
    t.v1 = t'.v1 ∧ t.v2 = t'.v2 ∧ t.v3 = t'.v3 ∧ t.v4 = t'.v4) ∧
  (∀ (s s' t t' : State) (p p' : Word), exec .blk s = .next t → exec .blk s' = .next t' →
    s.ptr = some p → s'.ptr = some p' →
    (s.v1 = s'.v1 → (∀ j < 8, s.view.byteAt (p.toNat + j) = s'.view.byteAt (p'.toNat + j)) → t.v1 = t'.v1) ∧
    (s.v2 = s'.v2 → (∀ j < 8, s.view.byteAt (p.toNat + 8 + j) = s'.view.byteAt (p'.toNat + 8 + j)) → t.v2 = t'.v2) ∧
    (s.v3 = s'.v3 → (∀ j < 8, s.view.byteAt (p.toNat + 16 + j) = s'.view.byteAt (p'.toNat + 16 + j)) →
      t.v3 = t'.v3) ∧
    (s.v4 = s'.v4 → (∀ j < 8, s.view.byteAt (p.toNat + 24 + j) = s'.view.byteAt (p'.toNat + 24 + j)) →
      t.v4 = t'.v4))

/-- R30, R191: the answer to a pending command is the same whatever ran before. -/
def Obligations.AnswerIndependentOfHistory : Prop :=
  ∀ (s s' : State) (c : Descriptor), Inv s → Inv s' → s.phase = .idle → s'.phase = .idle →
    s.cmd = some c → s'.cmd = some c → s.view = s'.view → s.viewLen = s'.viewLen →
    ∃ (k : Nat) (t t' : State) (e : Response), RunsTo k s t ∧ RunsTo k s' t' ∧
      t.resp = s.resp ++ [e] ∧ t'.resp = s'.resp ++ [e] ∧
      t.status = t'.status ∧ t.errcode = t'.errcode ∧ t.digest = t'.digest ∧
      t.phase = .idle ∧ t'.phase = .idle

/-! ### Invariants -/

/-- R33, R31: reset satisfies the invariant, over every view that satisfies R8. -/
def Obligations.ResetIsSound : Prop :=
  Inv State.reset ∧
  ∀ (m : Memory) (n : Nat), Memory.wf n m = true → n ≤ 2 ^ 63 - 1 → Inv (State.resetWith m n)

/-- R31: every step keeps the invariant. -/
def Obligations.StepKeepsInvariant : Prop :=
  ∀ s t : State, Inv s → step s = .next t → Inv t

/-- R31, R115: every host move keeps the invariant. -/
def Obligations.HostMovesKeepInvariant : Prop :=
  ∀ (m : HostMove) (s t : State), Inv s → hostMove m s = some t → Inv t

/-- R32, R48: no state reachable from reset, by steps and host moves in any order, makes the engine stop. -/
def Obligations.ReachableStatesNeverStop : Prop :=
  ∀ s : State, Reachable s → ∃ t, step s = .next t ∧ Reachable t ∧ Inv t

/-- R31 item 6: while a HASH past CHECK runs, what is consumed and what is left add up, and LEN stays. -/
def Obligations.ConsumedPlusLeftIsConstant : Prop :=
  ∀ (s t : State) (ptr rem : Word), Inv s → step s = .next t → s.phase ≠ .idle → s.phase ≠ .check →
    s.imm = some false → s.ptr = some ptr → s.rem = some rem →
    t.len = s.len ∧ ∃ ptr' rem' : Word, t.ptr = some ptr' ∧ t.rem = some rem' ∧
      ptr'.toNat + rem'.toNat = ptr.toNat + rem.toNat ∧ rem'.toNat ≤ rem.toNat

/-- R29, R31 item 8: a step appends to RESP at most, and the count of consumed commands goes up exactly when a command
is consumed. -/
def Obligations.OneResponsePerCommand : Prop :=
  ∀ s t : State, Inv s → step s = .next t →
    s.resp <+: t.resp ∧
    t.consumedCount = s.consumedCount + (if s.phase = .idle ∧ s.cmd.isSome = true then 1 else 0)

/-- R29: STATUS, ERRCODE and DIGEST describe the event a step emits. -/
def Obligations.StatusDescribesEvent : Prop :=
  ∀ s t : State, Inv s → step s = .next t →
    (∀ d : Word, t.resp = s.resp ++ [.ok d] →
      t.status = 0x02 ∧ t.errcode = 0x00 ∧ t.digest = some d ∧ t.readDigest = some d) ∧
    (∀ c : BitVec 8, t.resp = s.resp ++ [.err c] →
      t.status = 0x04 ∧ t.errcode = c ∧ t.digest = none ∧ t.readDigest = none)

/-- R170, R174, R175, R177: an error event is emitted by ACCEPT or CHECK only, with the code of its cause, and no lane
and no H is written. -/
def Obligations.FaultsArePrecise : Prop :=
  ∀ (s t : State) (c : BitVec 8), step s = .next t → t.resp = s.resp ++ [.err c] →
    (s.phase = .idle ∧ c = 0x02 ∨ s.phase = .check ∧ c = 0x01) ∧
    t.v1 = s.v1 ∧ t.v2 = s.v2 ∧ t.v3 = s.v3 ∧ t.v4 = s.v4 ∧ t.h = s.h ∧
    t.seed = s.seed ∧ t.len = s.len ∧ t.ptr = s.ptr ∧ t.rem = s.rem ∧ t.val = s.val ∧ t.imm = s.imm ∧
    t.phase = .idle ∧ t.busy = false

/-- R111: the complete transition table. -/
def Obligations.TransitionTable : Prop :=
  ∀ s t : State, Inv s → step s = .next t → t.phase = tableNext s

/-! ### Whole commands -/

/-- R133: from LINIT, one step and then a step per block lead to FOLD, each lane the fold of its own words. -/
def Obligations.BlockLoopFoldsEachLane : Prop :=
  ∀ (s : State) (seed len ptr : Word), Inv s → s.phase = .linit → s.seed = some seed → s.len = some len →
    s.ptr = some ptr →
    ∃ t, RunsTo (1 + len.toNat / 32) s t ∧ t.phase = .fold ∧
      (let lane (init : Word) (k : Nat) : Word :=
        (List.range (len.toNat / 32)).foldl
          (fun v j => mix v (leWord s.view.byteAt (ptr.toNat + 32 * j + 8 * k) 8)) init
       t.v1 = some (lane (seed + P1 + P2) 0) ∧ t.v2 = some (lane (seed + P2) 1) ∧
       t.v3 = some (lane seed 2) ∧ t.v4 = some (lane (seed - P1) 3)) ∧
      t.ptr = some (ptr + BitVec.ofNat 64 (32 * (len.toNat / 32))) ∧
      t.rem = some (BitVec.ofNat 64 (len.toNat % 32))

/-- R110, R151: from ADDLEN, one step and the tail's steps lead to AVAL, in the order T8, T4, T1, over ascending
addresses. -/
def Obligations.TailConsumesInOrder : Prop :=
  ∀ (s : State) (h len ptr rem : Word), Inv s → s.phase = .addlen → s.imm = some false →
    s.h = some h → s.len = some len → s.ptr = some ptr → s.rem = some rem →
    ∃ t, RunsTo (1 + (tailTrace rem.toNat).length) s t ∧
      phasesOf (1 + (tailTrace rem.toNat).length) s = .addlen :: tailTrace rem.toNat ∧
      t.phase = .aval ∧ t.rem = some 0 ∧ t.ptr = some (ptr + rem) ∧
      t.h = some (tailLoop s.view.byteAt ptr.toNat rem.toNat (h + len))

/-- R112, R113: a HASH that passes CHECK runs through the trace of R113 and answers with the closed form of the bytes
it addresses. -/
def Obligations.HashComputesClosedForm : Prop :=
  ∀ (s : State) (c : Descriptor) (seed offset length : Word), Inv s → s.phase = .idle → s.cmd = some c →
    decodeCommand c = .instr (.hash seed offset length) → offset.toNat + length.toNat ≤ s.viewLen →
    ∃ t, RunsTo (hashTrace length.toNat).length s t ∧
      phasesOf (hashTrace length.toNat).length s = hashTrace length.toNat ∧
      t.resp = s.resp ++ [.ok (xxh seed (s.view.slice offset.toNat length.toNat))] ∧
      t.digest = some (xxh seed (s.view.slice offset.toNat length.toNat)) ∧
      t.status = 0x02 ∧ t.errcode = 0x00 ∧ t.phase = .idle ∧ t.cmd = none

/-- R104: a HASHV takes six steps over any view and answers with the tail step and the avalanche of its value. -/
def Obligations.HashvComputesShortcut : Prop :=
  ∀ (s : State) (c : Descriptor) (value : Word), s.phase = .idle → s.cmd = some c →
    decodeCommand c = .instr (.hashv value) →
    ∃ t, RunsTo 6 s t ∧ phasesOf 6 s = [.idle, .sseed, .addlen, .t8, .aval, .ret] ∧
      t.resp = s.resp ++ [.ok (avalanche (tail8 (0x27D4EB2F165667C5 + 8) value))] ∧
      t.digest = some (avalanche (tail8 (0x27D4EB2F165667C5 + 8) value)) ∧
      t.status = 0x02 ∧ t.errcode = 0x00 ∧ t.phase = .idle

/-- R105: HASHV of a value and HASH 0, a, 8 over its little-endian bytes give the same response. -/
def Obligations.HashvEqualsHashOfBytes : Prop :=
  ∀ (s s' : State) (c c' : Descriptor) (value a : Word), Inv s' →
    s.phase = .idle → s'.phase = .idle → s.cmd = some c → s'.cmd = some c' →
    decodeCommand c = .instr (.hashv value) → decodeCommand c' = .instr (.hash 0 a 8) →
    a.toNat + 8 ≤ s'.viewLen →
    (∀ i < 8, s'.view.byteAt (a.toNat + i) = value.extractLsb' (8 * i) 8) →
    ∃ (d : Word) (t t' : State), RunsTo 6 s t ∧ RunsTo 7 s' t' ∧
      t.resp = s.resp ++ [.ok d] ∧ t'.resp = s'.resp ++ [.ok d]

/-- R103, R108, R113, R171: a HASH out of bounds is answered in two steps by Resp(ERR, 0x01), with no digest and no
lane or H written. -/
def Obligations.OutOfBoundsHashFaults : Prop :=
  ∀ (s : State) (c : Descriptor) (seed offset length : Word), s.phase = .idle → s.cmd = some c →
    decodeCommand c = .instr (.hash seed offset length) →
    (offset.getLsbD 63 = true ∨ length.getLsbD 63 = true ∨ offset.toNat + length.toNat > s.viewLen) →
    ∃ t, RunsTo 2 s t ∧ phasesOf 2 s = [.idle, .check] ∧ t.resp = s.resp ++ [.err 0x01] ∧
      t.status = 0x04 ∧ t.errcode = 0x01 ∧ t.digest = none ∧ t.phase = .idle ∧
      t.v1 = s.v1 ∧ t.v2 = s.v2 ∧ t.v3 = s.v3 ∧ t.v4 = s.v4 ∧ t.h = s.h

/-- R114: a command that is pending at an idle engine or in execution is answered after finitely many steps, with no more
than one step per block of the view and eighteen others. -/
def Obligations.EveryCommandIsAnswered : Prop :=
  ∀ s : State, Inv s → (s.busy = true ∨ s.cmd.isSome = true) →
    ∃ (k : Nat) (t : State) (e : Response), k ≤ s.viewLen / 32 + 18 ∧ RunsTo k s t ∧
      t.resp = s.resp ++ [e] ∧ t.phase = .idle ∧ t.busy = false ∧
      t.v1 = none ∧ t.v2 = none ∧ t.v3 = none ∧ t.v4 = none ∧ t.h = none

/-! ### The host port -/

/-- R33, R190, R192: reset puts every register to its value of R33 from any state, and keeps responses and view. -/
def Obligations.ResetValues : Prop :=
  ∀ s : State,
    s.assertReset =
      { v1 := none, v2 := none, v3 := none, v4 := none, h := none, seed := none, len := none, ptr := none,
        rem := none, val := none, imm := none, phase := .idle, busy := false, done := false, err := false,
        errcode := 0x00, digest := none, cmd := none, resp := s.resp, view := s.view, viewLen := s.viewLen } ∧
    s.assertReset.status = 0x00

/-- R22, R27, R199: STATUS bit by bit; DIGEST is read only when DONE = 1, and then a sound state has one. -/
def Obligations.HostReadsStatusAndDigest : Prop :=
  ∀ s : State,
    (s.status.getLsbD 0 = s.busy ∧ s.status.getLsbD 1 = s.done ∧ s.status.getLsbD 2 = s.err ∧
      s.status.toNat < 8) ∧
    (s.done = false → s.readDigest = none) ∧
    (Inv s → s.done = true → ∃ d, s.readDigest = some d ∧ s.digest = some d)

/-- R28, R115, R196, R197: an empty slot can be filled in any phase and nothing else changes, a full one cannot. While no
HASH waits or runs the host can write any byte of the view and can place any image R8 admits, nothing else changing; while
one does, it can do neither. What counts as a HASH that waits or runs is log entry 9. -/
def Obligations.SlotAndViewHandshake : Prop :=
  (∀ (s : State) (c : Descriptor), s.cmd = none → s.present c = some { s with cmd := some c }) ∧
  (∀ (s : State) (c c' : Descriptor), s.cmd = some c → s.present c' = none) ∧
  (∀ (s : State) (a : Nat) (b : Byte) (bytes : List Byte),
    (s.busy = true → s.imm = some true) →
    (∀ c seed offset length, s.cmd = some c → decodeCommand c ≠ .instr (.hash seed offset length)) →
    (a < s.viewLen → s.writeView a b = some { s with view := s.view.write a b }) ∧
    (s.viewLen ≤ a → s.writeView a b = none) ∧
    (bytes.length ≤ 2 ^ 63 - 1 →
      s.placeView bytes = some { s with view := Memory.ofBytesFrom 0 bytes, viewLen := bytes.length }) ∧
    (2 ^ 63 - 1 < bytes.length → s.placeView bytes = none)) ∧
  (∀ (s : State) (a : Nat) (b : Byte) (bytes : List Byte),
    (s.busy = true ∧ s.imm = some false) ∨
      (∃ c seed offset length, s.cmd = some c ∧ decodeCommand c = .instr (.hash seed offset length)) →
    s.writeView a b = none ∧ s.placeView bytes = none)

/-- The view under the host's moves: a written byte reads back, every other byte reads as before, the canonical form is
kept; a placed view holds exactly its bytes (R40, R107). Two canonical views of one length that read the same everywhere
are the same cells. -/
def Obligations.ViewMovesReadBack : Prop :=
  (∀ (s t : State) (a : Nat) (b : Byte), s.writeView a b = some t → Memory.wf s.viewLen s.view = true →
    t.view.byteAt a = b ∧ (∀ a', a' ≠ a → t.view.byteAt a' = s.view.byteAt a') ∧
    Memory.wf t.viewLen t.view = true) ∧
  (∀ (s t : State) (bytes : List Byte), s.placeView bytes = some t →
    t.view.slice 0 t.viewLen = bytes ∧ Memory.wf t.viewLen t.view = true) ∧
  (∀ (n : Nat) (m m' : Memory), Memory.wf n m = true → Memory.wf n m' = true →
    (∀ a, m.byteAt a = m'.byteAt a) → m = m')

/-- R69, R106, R107: HASHD, HASHS and HASHT issued to an idle engine with an empty slot never raise BOUNDS, and run with
the seed, offset and length of their expansion; HASHT first makes the view hold exactly the bytes of its text. -/
def Obligations.FullViewCommandsPassBounds : Prop :=
  (∀ (s : State) (a : Asm) (seed : Word), Inv s → s.phase = .idle → s.cmd = none →
    (a = .hashd ∧ seed = 0 ∨ a = .hashs seed.toNat) →
    ∃ s' t, State.issue a s = some s' ∧ RunsTo 2 s' t ∧ t.busy = true ∧ t.err = false ∧ t.resp = s.resp ∧
      t.seed = some seed ∧ t.ptr = some 0 ∧ t.len = some (BitVec.ofNat 64 s.viewLen) ∧
      t.view = s.view ∧ t.viewLen = s.viewLen) ∧
  (∀ (s : State) (text : List Byte), Inv s → s.phase = .idle → s.cmd = none → text.length ≤ 2 ^ 63 - 1 →
    ∃ s' t, State.issue (.hasht text) s = some s' ∧ RunsTo 2 s' t ∧ t.busy = true ∧ t.err = false ∧
      t.resp = s.resp ∧ t.seed = some 0 ∧ t.ptr = some 0 ∧ t.len = some (BitVec.ofNat 64 text.length) ∧
      t.viewLen = text.length ∧ t.view.slice 0 text.length = text)

/-- R183: a step of one instance is the engine's step there and leaves every other instance as it is; steps of two
different instances commute. That engines are a list, step one at a time, and each carry a copy of the view they are given
is the model's choice, log entry 13. -/
def Obligations.EnginesStepIndependently : Prop :=
  (∀ (y y₁ : System) (i : Nat), y.stepEngine i = some (.next y₁) →
    (∃ s t, y.engines[i]? = some s ∧ step s = .next t ∧ y₁.engines[i]? = some t) ∧
    ∀ k, k ≠ i → y₁.engines[k]? = y.engines[k]?) ∧
  (∀ (y y₁ y₂ : System) (i j : Nat), i ≠ j →
    y.stepEngine i = some (.next y₁) → y.stepEngine j = some (.next y₂) →
    ∃ z, y₁.stepEngine j = some (.next z) ∧ y₂.stepEngine i = some (.next z))
end

