-- ==== Sys2Proof/Laws/State.lean ====
section
/-! SUPPORT. One lemma per field per named update of State, true by rfl, so that no later proof unfolds a record
update. -/

namespace Sys2Proof.Machine

variable (s : State)

/-! ### clearStatus -/

@[simp] theorem State.clearStatus_v1 : s.clearStatus.v1 = s.v1 := rfl
@[simp] theorem State.clearStatus_v2 : s.clearStatus.v2 = s.v2 := rfl
@[simp] theorem State.clearStatus_v3 : s.clearStatus.v3 = s.v3 := rfl
@[simp] theorem State.clearStatus_v4 : s.clearStatus.v4 = s.v4 := rfl
@[simp] theorem State.clearStatus_h : s.clearStatus.h = s.h := rfl
@[simp] theorem State.clearStatus_seed : s.clearStatus.seed = s.seed := rfl
@[simp] theorem State.clearStatus_len : s.clearStatus.len = s.len := rfl
@[simp] theorem State.clearStatus_ptr : s.clearStatus.ptr = s.ptr := rfl
@[simp] theorem State.clearStatus_rem : s.clearStatus.rem = s.rem := rfl
@[simp] theorem State.clearStatus_val : s.clearStatus.val = s.val := rfl
@[simp] theorem State.clearStatus_imm : s.clearStatus.imm = s.imm := rfl
@[simp] theorem State.clearStatus_phase : s.clearStatus.phase = s.phase := rfl
@[simp] theorem State.clearStatus_busy : s.clearStatus.busy = s.busy := rfl
@[simp] theorem State.clearStatus_done : s.clearStatus.done = false := rfl
@[simp] theorem State.clearStatus_err : s.clearStatus.err = false := rfl
@[simp] theorem State.clearStatus_errcode : s.clearStatus.errcode = 0x00#8 := rfl
@[simp] theorem State.clearStatus_digest : s.clearStatus.digest = none := rfl
@[simp] theorem State.clearStatus_cmd : s.clearStatus.cmd = s.cmd := rfl
@[simp] theorem State.clearStatus_resp : s.clearStatus.resp = s.resp := rfl
@[simp] theorem State.clearStatus_view : s.clearStatus.view = s.view := rfl
@[simp] theorem State.clearStatus_viewLen : s.clearStatus.viewLen = s.viewLen := rfl

/-! ### setBusy -/

@[simp] theorem State.setBusy_v1 : s.setBusy.v1 = s.v1 := rfl
@[simp] theorem State.setBusy_v2 : s.setBusy.v2 = s.v2 := rfl
@[simp] theorem State.setBusy_v3 : s.setBusy.v3 = s.v3 := rfl
@[simp] theorem State.setBusy_v4 : s.setBusy.v4 = s.v4 := rfl
@[simp] theorem State.setBusy_h : s.setBusy.h = s.h := rfl
@[simp] theorem State.setBusy_seed : s.setBusy.seed = s.seed := rfl
@[simp] theorem State.setBusy_len : s.setBusy.len = s.len := rfl
@[simp] theorem State.setBusy_ptr : s.setBusy.ptr = s.ptr := rfl
@[simp] theorem State.setBusy_rem : s.setBusy.rem = s.rem := rfl
@[simp] theorem State.setBusy_val : s.setBusy.val = s.val := rfl
@[simp] theorem State.setBusy_imm : s.setBusy.imm = s.imm := rfl
@[simp] theorem State.setBusy_phase : s.setBusy.phase = s.phase := rfl
@[simp] theorem State.setBusy_busy : s.setBusy.busy = true := rfl
@[simp] theorem State.setBusy_done : s.setBusy.done = s.done := rfl
@[simp] theorem State.setBusy_err : s.setBusy.err = s.err := rfl
@[simp] theorem State.setBusy_errcode : s.setBusy.errcode = s.errcode := rfl
@[simp] theorem State.setBusy_digest : s.setBusy.digest = s.digest := rfl
@[simp] theorem State.setBusy_cmd : s.setBusy.cmd = s.cmd := rfl
@[simp] theorem State.setBusy_resp : s.setBusy.resp = s.resp := rfl
@[simp] theorem State.setBusy_view : s.setBusy.view = s.view := rfl
@[simp] theorem State.setBusy_viewLen : s.setBusy.viewLen = s.viewLen := rfl

/-! ### setDone -/

@[simp] theorem State.setDone_v1 (d : Word) : (s.setDone d).v1 = s.v1 := rfl
@[simp] theorem State.setDone_v2 (d : Word) : (s.setDone d).v2 = s.v2 := rfl
@[simp] theorem State.setDone_v3 (d : Word) : (s.setDone d).v3 = s.v3 := rfl
@[simp] theorem State.setDone_v4 (d : Word) : (s.setDone d).v4 = s.v4 := rfl
@[simp] theorem State.setDone_h (d : Word) : (s.setDone d).h = s.h := rfl
@[simp] theorem State.setDone_seed (d : Word) : (s.setDone d).seed = s.seed := rfl
@[simp] theorem State.setDone_len (d : Word) : (s.setDone d).len = s.len := rfl
@[simp] theorem State.setDone_ptr (d : Word) : (s.setDone d).ptr = s.ptr := rfl
@[simp] theorem State.setDone_rem (d : Word) : (s.setDone d).rem = s.rem := rfl
@[simp] theorem State.setDone_val (d : Word) : (s.setDone d).val = s.val := rfl
@[simp] theorem State.setDone_imm (d : Word) : (s.setDone d).imm = s.imm := rfl
@[simp] theorem State.setDone_phase (d : Word) : (s.setDone d).phase = s.phase := rfl
@[simp] theorem State.setDone_busy (d : Word) : (s.setDone d).busy = false := rfl
@[simp] theorem State.setDone_done (d : Word) : (s.setDone d).done = true := rfl
@[simp] theorem State.setDone_err (d : Word) : (s.setDone d).err = s.err := rfl
@[simp] theorem State.setDone_errcode (d : Word) : (s.setDone d).errcode = s.errcode := rfl
@[simp] theorem State.setDone_digest (d : Word) : (s.setDone d).digest = some d := rfl
@[simp] theorem State.setDone_cmd (d : Word) : (s.setDone d).cmd = s.cmd := rfl
@[simp] theorem State.setDone_resp (d : Word) : (s.setDone d).resp = s.resp := rfl
@[simp] theorem State.setDone_view (d : Word) : (s.setDone d).view = s.view := rfl
@[simp] theorem State.setDone_viewLen (d : Word) : (s.setDone d).viewLen = s.viewLen := rfl

/-! ### setFault -/

@[simp] theorem State.setFault_v1 (c : BitVec 8) : (s.setFault c).v1 = s.v1 := rfl
@[simp] theorem State.setFault_v2 (c : BitVec 8) : (s.setFault c).v2 = s.v2 := rfl
@[simp] theorem State.setFault_v3 (c : BitVec 8) : (s.setFault c).v3 = s.v3 := rfl
@[simp] theorem State.setFault_v4 (c : BitVec 8) : (s.setFault c).v4 = s.v4 := rfl
@[simp] theorem State.setFault_h (c : BitVec 8) : (s.setFault c).h = s.h := rfl
@[simp] theorem State.setFault_seed (c : BitVec 8) : (s.setFault c).seed = s.seed := rfl
@[simp] theorem State.setFault_len (c : BitVec 8) : (s.setFault c).len = s.len := rfl
@[simp] theorem State.setFault_ptr (c : BitVec 8) : (s.setFault c).ptr = s.ptr := rfl
@[simp] theorem State.setFault_rem (c : BitVec 8) : (s.setFault c).rem = s.rem := rfl
@[simp] theorem State.setFault_val (c : BitVec 8) : (s.setFault c).val = s.val := rfl
@[simp] theorem State.setFault_imm (c : BitVec 8) : (s.setFault c).imm = s.imm := rfl
@[simp] theorem State.setFault_phase (c : BitVec 8) : (s.setFault c).phase = s.phase := rfl
@[simp] theorem State.setFault_busy (c : BitVec 8) : (s.setFault c).busy = false := rfl
@[simp] theorem State.setFault_done (c : BitVec 8) : (s.setFault c).done = false := rfl
@[simp] theorem State.setFault_err (c : BitVec 8) : (s.setFault c).err = true := rfl
@[simp] theorem State.setFault_errcode (c : BitVec 8) : (s.setFault c).errcode = c := rfl
@[simp] theorem State.setFault_digest (c : BitVec 8) : (s.setFault c).digest = none := rfl
@[simp] theorem State.setFault_cmd (c : BitVec 8) : (s.setFault c).cmd = s.cmd := rfl
@[simp] theorem State.setFault_resp (c : BitVec 8) : (s.setFault c).resp = s.resp := rfl
@[simp] theorem State.setFault_view (c : BitVec 8) : (s.setFault c).view = s.view := rfl
@[simp] theorem State.setFault_viewLen (c : BitVec 8) : (s.setFault c).viewLen = s.viewLen := rfl

/-! ### goTo -/

@[simp] theorem State.goTo_v1 (p : Phase) : (s.goTo p).v1 = s.v1 := rfl
@[simp] theorem State.goTo_v2 (p : Phase) : (s.goTo p).v2 = s.v2 := rfl
@[simp] theorem State.goTo_v3 (p : Phase) : (s.goTo p).v3 = s.v3 := rfl
@[simp] theorem State.goTo_v4 (p : Phase) : (s.goTo p).v4 = s.v4 := rfl
@[simp] theorem State.goTo_h (p : Phase) : (s.goTo p).h = s.h := rfl
@[simp] theorem State.goTo_seed (p : Phase) : (s.goTo p).seed = s.seed := rfl
@[simp] theorem State.goTo_len (p : Phase) : (s.goTo p).len = s.len := rfl
@[simp] theorem State.goTo_ptr (p : Phase) : (s.goTo p).ptr = s.ptr := rfl
@[simp] theorem State.goTo_rem (p : Phase) : (s.goTo p).rem = s.rem := rfl
@[simp] theorem State.goTo_val (p : Phase) : (s.goTo p).val = s.val := rfl
@[simp] theorem State.goTo_imm (p : Phase) : (s.goTo p).imm = s.imm := rfl
@[simp] theorem State.goTo_phase (p : Phase) : (s.goTo p).phase = p := rfl
@[simp] theorem State.goTo_busy (p : Phase) : (s.goTo p).busy = s.busy := rfl
@[simp] theorem State.goTo_done (p : Phase) : (s.goTo p).done = s.done := rfl
@[simp] theorem State.goTo_err (p : Phase) : (s.goTo p).err = s.err := rfl
@[simp] theorem State.goTo_errcode (p : Phase) : (s.goTo p).errcode = s.errcode := rfl
@[simp] theorem State.goTo_digest (p : Phase) : (s.goTo p).digest = s.digest := rfl
@[simp] theorem State.goTo_cmd (p : Phase) : (s.goTo p).cmd = s.cmd := rfl
@[simp] theorem State.goTo_resp (p : Phase) : (s.goTo p).resp = s.resp := rfl
@[simp] theorem State.goTo_view (p : Phase) : (s.goTo p).view = s.view := rfl
@[simp] theorem State.goTo_viewLen (p : Phase) : (s.goTo p).viewLen = s.viewLen := rfl

/-! ### setH -/

@[simp] theorem State.setH_v1 (x : Word) : (s.setH x).v1 = s.v1 := rfl
@[simp] theorem State.setH_v2 (x : Word) : (s.setH x).v2 = s.v2 := rfl
@[simp] theorem State.setH_v3 (x : Word) : (s.setH x).v3 = s.v3 := rfl
@[simp] theorem State.setH_v4 (x : Word) : (s.setH x).v4 = s.v4 := rfl
@[simp] theorem State.setH_h (x : Word) : (s.setH x).h = some x := rfl
@[simp] theorem State.setH_seed (x : Word) : (s.setH x).seed = s.seed := rfl
@[simp] theorem State.setH_len (x : Word) : (s.setH x).len = s.len := rfl
@[simp] theorem State.setH_ptr (x : Word) : (s.setH x).ptr = s.ptr := rfl
@[simp] theorem State.setH_rem (x : Word) : (s.setH x).rem = s.rem := rfl
@[simp] theorem State.setH_val (x : Word) : (s.setH x).val = s.val := rfl
@[simp] theorem State.setH_imm (x : Word) : (s.setH x).imm = s.imm := rfl
@[simp] theorem State.setH_phase (x : Word) : (s.setH x).phase = s.phase := rfl
@[simp] theorem State.setH_busy (x : Word) : (s.setH x).busy = s.busy := rfl
@[simp] theorem State.setH_done (x : Word) : (s.setH x).done = s.done := rfl
@[simp] theorem State.setH_err (x : Word) : (s.setH x).err = s.err := rfl
@[simp] theorem State.setH_errcode (x : Word) : (s.setH x).errcode = s.errcode := rfl
@[simp] theorem State.setH_digest (x : Word) : (s.setH x).digest = s.digest := rfl
@[simp] theorem State.setH_cmd (x : Word) : (s.setH x).cmd = s.cmd := rfl
@[simp] theorem State.setH_resp (x : Word) : (s.setH x).resp = s.resp := rfl
@[simp] theorem State.setH_view (x : Word) : (s.setH x).view = s.view := rfl
@[simp] theorem State.setH_viewLen (x : Word) : (s.setH x).viewLen = s.viewLen := rfl

/-! ### setLanes -/

@[simp] theorem State.setLanes_v1 (a b c d : Word) : (s.setLanes a b c d).v1 = some a := rfl
@[simp] theorem State.setLanes_v2 (a b c d : Word) : (s.setLanes a b c d).v2 = some b := rfl
@[simp] theorem State.setLanes_v3 (a b c d : Word) : (s.setLanes a b c d).v3 = some c := rfl
@[simp] theorem State.setLanes_v4 (a b c d : Word) : (s.setLanes a b c d).v4 = some d := rfl
@[simp] theorem State.setLanes_h (a b c d : Word) : (s.setLanes a b c d).h = s.h := rfl
@[simp] theorem State.setLanes_seed (a b c d : Word) : (s.setLanes a b c d).seed = s.seed := rfl
@[simp] theorem State.setLanes_len (a b c d : Word) : (s.setLanes a b c d).len = s.len := rfl
@[simp] theorem State.setLanes_ptr (a b c d : Word) : (s.setLanes a b c d).ptr = s.ptr := rfl
@[simp] theorem State.setLanes_rem (a b c d : Word) : (s.setLanes a b c d).rem = s.rem := rfl
@[simp] theorem State.setLanes_val (a b c d : Word) : (s.setLanes a b c d).val = s.val := rfl
@[simp] theorem State.setLanes_imm (a b c d : Word) : (s.setLanes a b c d).imm = s.imm := rfl
@[simp] theorem State.setLanes_phase (a b c d : Word) : (s.setLanes a b c d).phase = s.phase := rfl
@[simp] theorem State.setLanes_busy (a b c d : Word) : (s.setLanes a b c d).busy = s.busy := rfl
@[simp] theorem State.setLanes_done (a b c d : Word) : (s.setLanes a b c d).done = s.done := rfl
@[simp] theorem State.setLanes_err (a b c d : Word) : (s.setLanes a b c d).err = s.err := rfl
@[simp] theorem State.setLanes_errcode (a b c d : Word) : (s.setLanes a b c d).errcode = s.errcode := rfl
@[simp] theorem State.setLanes_digest (a b c d : Word) : (s.setLanes a b c d).digest = s.digest := rfl
@[simp] theorem State.setLanes_cmd (a b c d : Word) : (s.setLanes a b c d).cmd = s.cmd := rfl
@[simp] theorem State.setLanes_resp (a b c d : Word) : (s.setLanes a b c d).resp = s.resp := rfl
@[simp] theorem State.setLanes_view (a b c d : Word) : (s.setLanes a b c d).view = s.view := rfl
@[simp] theorem State.setLanes_viewLen (a b c d : Word) : (s.setLanes a b c d).viewLen = s.viewLen := rfl

/-! ### dropLanes -/

@[simp] theorem State.dropLanes_v1 : s.dropLanes.v1 = none := rfl
@[simp] theorem State.dropLanes_v2 : s.dropLanes.v2 = none := rfl
@[simp] theorem State.dropLanes_v3 : s.dropLanes.v3 = none := rfl
@[simp] theorem State.dropLanes_v4 : s.dropLanes.v4 = none := rfl
@[simp] theorem State.dropLanes_h : s.dropLanes.h = s.h := rfl
@[simp] theorem State.dropLanes_seed : s.dropLanes.seed = s.seed := rfl
@[simp] theorem State.dropLanes_len : s.dropLanes.len = s.len := rfl
@[simp] theorem State.dropLanes_ptr : s.dropLanes.ptr = s.ptr := rfl
@[simp] theorem State.dropLanes_rem : s.dropLanes.rem = s.rem := rfl
@[simp] theorem State.dropLanes_val : s.dropLanes.val = s.val := rfl
@[simp] theorem State.dropLanes_imm : s.dropLanes.imm = s.imm := rfl
@[simp] theorem State.dropLanes_phase : s.dropLanes.phase = s.phase := rfl
@[simp] theorem State.dropLanes_busy : s.dropLanes.busy = s.busy := rfl
@[simp] theorem State.dropLanes_done : s.dropLanes.done = s.done := rfl
@[simp] theorem State.dropLanes_err : s.dropLanes.err = s.err := rfl
@[simp] theorem State.dropLanes_errcode : s.dropLanes.errcode = s.errcode := rfl
@[simp] theorem State.dropLanes_digest : s.dropLanes.digest = s.digest := rfl
@[simp] theorem State.dropLanes_cmd : s.dropLanes.cmd = s.cmd := rfl
@[simp] theorem State.dropLanes_resp : s.dropLanes.resp = s.resp := rfl
@[simp] theorem State.dropLanes_view : s.dropLanes.view = s.view := rfl
@[simp] theorem State.dropLanes_viewLen : s.dropLanes.viewLen = s.viewLen := rfl

/-! ### dropH -/

@[simp] theorem State.dropH_v1 : s.dropH.v1 = s.v1 := rfl
@[simp] theorem State.dropH_v2 : s.dropH.v2 = s.v2 := rfl
@[simp] theorem State.dropH_v3 : s.dropH.v3 = s.v3 := rfl
@[simp] theorem State.dropH_v4 : s.dropH.v4 = s.v4 := rfl
@[simp] theorem State.dropH_h : s.dropH.h = none := rfl
@[simp] theorem State.dropH_seed : s.dropH.seed = s.seed := rfl
@[simp] theorem State.dropH_len : s.dropH.len = s.len := rfl
@[simp] theorem State.dropH_ptr : s.dropH.ptr = s.ptr := rfl
@[simp] theorem State.dropH_rem : s.dropH.rem = s.rem := rfl
@[simp] theorem State.dropH_val : s.dropH.val = s.val := rfl
@[simp] theorem State.dropH_imm : s.dropH.imm = s.imm := rfl
@[simp] theorem State.dropH_phase : s.dropH.phase = s.phase := rfl
@[simp] theorem State.dropH_busy : s.dropH.busy = s.busy := rfl
@[simp] theorem State.dropH_done : s.dropH.done = s.done := rfl
@[simp] theorem State.dropH_err : s.dropH.err = s.err := rfl
@[simp] theorem State.dropH_errcode : s.dropH.errcode = s.errcode := rfl
@[simp] theorem State.dropH_digest : s.dropH.digest = s.digest := rfl
@[simp] theorem State.dropH_cmd : s.dropH.cmd = s.cmd := rfl
@[simp] theorem State.dropH_resp : s.dropH.resp = s.resp := rfl
@[simp] theorem State.dropH_view : s.dropH.view = s.view := rfl
@[simp] theorem State.dropH_viewLen : s.dropH.viewLen = s.viewLen := rfl

/-! ### consume -/

@[simp] theorem State.consume_v1 (p r n : Word) : (s.consume p r n).v1 = s.v1 := rfl
@[simp] theorem State.consume_v2 (p r n : Word) : (s.consume p r n).v2 = s.v2 := rfl
@[simp] theorem State.consume_v3 (p r n : Word) : (s.consume p r n).v3 = s.v3 := rfl
@[simp] theorem State.consume_v4 (p r n : Word) : (s.consume p r n).v4 = s.v4 := rfl
@[simp] theorem State.consume_h (p r n : Word) : (s.consume p r n).h = s.h := rfl
@[simp] theorem State.consume_seed (p r n : Word) : (s.consume p r n).seed = s.seed := rfl
@[simp] theorem State.consume_len (p r n : Word) : (s.consume p r n).len = s.len := rfl
@[simp] theorem State.consume_ptr (p r n : Word) : (s.consume p r n).ptr = some (p + n) := rfl
@[simp] theorem State.consume_rem (p r n : Word) : (s.consume p r n).rem = some (r - n) := rfl
@[simp] theorem State.consume_val (p r n : Word) : (s.consume p r n).val = s.val := rfl
@[simp] theorem State.consume_imm (p r n : Word) : (s.consume p r n).imm = s.imm := rfl
@[simp] theorem State.consume_phase (p r n : Word) : (s.consume p r n).phase = s.phase := rfl
@[simp] theorem State.consume_busy (p r n : Word) : (s.consume p r n).busy = s.busy := rfl
@[simp] theorem State.consume_done (p r n : Word) : (s.consume p r n).done = s.done := rfl
@[simp] theorem State.consume_err (p r n : Word) : (s.consume p r n).err = s.err := rfl
@[simp] theorem State.consume_errcode (p r n : Word) : (s.consume p r n).errcode = s.errcode := rfl
@[simp] theorem State.consume_digest (p r n : Word) : (s.consume p r n).digest = s.digest := rfl
@[simp] theorem State.consume_cmd (p r n : Word) : (s.consume p r n).cmd = s.cmd := rfl
@[simp] theorem State.consume_resp (p r n : Word) : (s.consume p r n).resp = s.resp := rfl
@[simp] theorem State.consume_view (p r n : Word) : (s.consume p r n).view = s.view := rfl
@[simp] theorem State.consume_viewLen (p r n : Word) : (s.consume p r n).viewLen = s.viewLen := rfl

/-! ### latch -/

@[simp] theorem State.latch_v1 (se le pt : Word) (va : Option Word) (im : Bool) : (s.latch se le pt va im).v1 = s.v1 := rfl
@[simp] theorem State.latch_v2 (se le pt : Word) (va : Option Word) (im : Bool) : (s.latch se le pt va im).v2 = s.v2 := rfl
@[simp] theorem State.latch_v3 (se le pt : Word) (va : Option Word) (im : Bool) : (s.latch se le pt va im).v3 = s.v3 := rfl
@[simp] theorem State.latch_v4 (se le pt : Word) (va : Option Word) (im : Bool) : (s.latch se le pt va im).v4 = s.v4 := rfl
@[simp] theorem State.latch_h (se le pt : Word) (va : Option Word) (im : Bool) : (s.latch se le pt va im).h = s.h := rfl
@[simp] theorem State.latch_seed (se le pt : Word) (va : Option Word) (im : Bool) : (s.latch se le pt va im).seed = some se := rfl
@[simp] theorem State.latch_len (se le pt : Word) (va : Option Word) (im : Bool) : (s.latch se le pt va im).len = some le := rfl
@[simp] theorem State.latch_ptr (se le pt : Word) (va : Option Word) (im : Bool) : (s.latch se le pt va im).ptr = some pt := rfl
@[simp] theorem State.latch_rem (se le pt : Word) (va : Option Word) (im : Bool) : (s.latch se le pt va im).rem = some le := rfl
@[simp] theorem State.latch_val (se le pt : Word) (va : Option Word) (im : Bool) : (s.latch se le pt va im).val = va := rfl
@[simp] theorem State.latch_imm (se le pt : Word) (va : Option Word) (im : Bool) : (s.latch se le pt va im).imm = some im := rfl
@[simp] theorem State.latch_phase (se le pt : Word) (va : Option Word) (im : Bool) : (s.latch se le pt va im).phase = s.phase := rfl
@[simp] theorem State.latch_busy (se le pt : Word) (va : Option Word) (im : Bool) : (s.latch se le pt va im).busy = s.busy := rfl
@[simp] theorem State.latch_done (se le pt : Word) (va : Option Word) (im : Bool) : (s.latch se le pt va im).done = s.done := rfl
@[simp] theorem State.latch_err (se le pt : Word) (va : Option Word) (im : Bool) : (s.latch se le pt va im).err = s.err := rfl
@[simp] theorem State.latch_errcode (se le pt : Word) (va : Option Word) (im : Bool) : (s.latch se le pt va im).errcode = s.errcode := rfl
@[simp] theorem State.latch_digest (se le pt : Word) (va : Option Word) (im : Bool) : (s.latch se le pt va im).digest = s.digest := rfl
@[simp] theorem State.latch_cmd (se le pt : Word) (va : Option Word) (im : Bool) : (s.latch se le pt va im).cmd = s.cmd := rfl
@[simp] theorem State.latch_resp (se le pt : Word) (va : Option Word) (im : Bool) : (s.latch se le pt va im).resp = s.resp := rfl
@[simp] theorem State.latch_view (se le pt : Word) (va : Option Word) (im : Bool) : (s.latch se le pt va im).view = s.view := rfl
@[simp] theorem State.latch_viewLen (se le pt : Word) (va : Option Word) (im : Bool) : (s.latch se le pt va im).viewLen = s.viewLen := rfl

/-! ### takeCmd -/

@[simp] theorem State.takeCmd_v1 : s.takeCmd.v1 = s.v1 := rfl
@[simp] theorem State.takeCmd_v2 : s.takeCmd.v2 = s.v2 := rfl
@[simp] theorem State.takeCmd_v3 : s.takeCmd.v3 = s.v3 := rfl
@[simp] theorem State.takeCmd_v4 : s.takeCmd.v4 = s.v4 := rfl
@[simp] theorem State.takeCmd_h : s.takeCmd.h = s.h := rfl
@[simp] theorem State.takeCmd_seed : s.takeCmd.seed = s.seed := rfl
@[simp] theorem State.takeCmd_len : s.takeCmd.len = s.len := rfl
@[simp] theorem State.takeCmd_ptr : s.takeCmd.ptr = s.ptr := rfl
@[simp] theorem State.takeCmd_rem : s.takeCmd.rem = s.rem := rfl
@[simp] theorem State.takeCmd_val : s.takeCmd.val = s.val := rfl
@[simp] theorem State.takeCmd_imm : s.takeCmd.imm = s.imm := rfl
@[simp] theorem State.takeCmd_phase : s.takeCmd.phase = s.phase := rfl
@[simp] theorem State.takeCmd_busy : s.takeCmd.busy = s.busy := rfl
@[simp] theorem State.takeCmd_done : s.takeCmd.done = s.done := rfl
@[simp] theorem State.takeCmd_err : s.takeCmd.err = s.err := rfl
@[simp] theorem State.takeCmd_errcode : s.takeCmd.errcode = s.errcode := rfl
@[simp] theorem State.takeCmd_digest : s.takeCmd.digest = s.digest := rfl
@[simp] theorem State.takeCmd_cmd : s.takeCmd.cmd = none := rfl
@[simp] theorem State.takeCmd_resp : s.takeCmd.resp = s.resp := rfl
@[simp] theorem State.takeCmd_view : s.takeCmd.view = s.view := rfl
@[simp] theorem State.takeCmd_viewLen : s.takeCmd.viewLen = s.viewLen := rfl

/-! ### emit -/

@[simp] theorem State.emit_v1 (r : Response) : (s.emit r).v1 = s.v1 := rfl
@[simp] theorem State.emit_v2 (r : Response) : (s.emit r).v2 = s.v2 := rfl
@[simp] theorem State.emit_v3 (r : Response) : (s.emit r).v3 = s.v3 := rfl
@[simp] theorem State.emit_v4 (r : Response) : (s.emit r).v4 = s.v4 := rfl
@[simp] theorem State.emit_h (r : Response) : (s.emit r).h = s.h := rfl
@[simp] theorem State.emit_seed (r : Response) : (s.emit r).seed = s.seed := rfl
@[simp] theorem State.emit_len (r : Response) : (s.emit r).len = s.len := rfl
@[simp] theorem State.emit_ptr (r : Response) : (s.emit r).ptr = s.ptr := rfl
@[simp] theorem State.emit_rem (r : Response) : (s.emit r).rem = s.rem := rfl
@[simp] theorem State.emit_val (r : Response) : (s.emit r).val = s.val := rfl
@[simp] theorem State.emit_imm (r : Response) : (s.emit r).imm = s.imm := rfl
@[simp] theorem State.emit_phase (r : Response) : (s.emit r).phase = s.phase := rfl
@[simp] theorem State.emit_busy (r : Response) : (s.emit r).busy = s.busy := rfl
@[simp] theorem State.emit_done (r : Response) : (s.emit r).done = s.done := rfl
@[simp] theorem State.emit_err (r : Response) : (s.emit r).err = s.err := rfl
@[simp] theorem State.emit_errcode (r : Response) : (s.emit r).errcode = s.errcode := rfl
@[simp] theorem State.emit_digest (r : Response) : (s.emit r).digest = s.digest := rfl
@[simp] theorem State.emit_cmd (r : Response) : (s.emit r).cmd = s.cmd := rfl
@[simp] theorem State.emit_resp (r : Response) : (s.emit r).resp = s.resp ++ [r] := rfl
@[simp] theorem State.emit_view (r : Response) : (s.emit r).view = s.view := rfl
@[simp] theorem State.emit_viewLen (r : Response) : (s.emit r).viewLen = s.viewLen := rfl

/-! ### withView -/

@[simp] theorem State.withView_v1 (m : Memory) : (s.withView m).v1 = s.v1 := rfl
@[simp] theorem State.withView_v2 (m : Memory) : (s.withView m).v2 = s.v2 := rfl
@[simp] theorem State.withView_v3 (m : Memory) : (s.withView m).v3 = s.v3 := rfl
@[simp] theorem State.withView_v4 (m : Memory) : (s.withView m).v4 = s.v4 := rfl
@[simp] theorem State.withView_h (m : Memory) : (s.withView m).h = s.h := rfl
@[simp] theorem State.withView_seed (m : Memory) : (s.withView m).seed = s.seed := rfl
@[simp] theorem State.withView_len (m : Memory) : (s.withView m).len = s.len := rfl
@[simp] theorem State.withView_ptr (m : Memory) : (s.withView m).ptr = s.ptr := rfl
@[simp] theorem State.withView_rem (m : Memory) : (s.withView m).rem = s.rem := rfl
@[simp] theorem State.withView_val (m : Memory) : (s.withView m).val = s.val := rfl
@[simp] theorem State.withView_imm (m : Memory) : (s.withView m).imm = s.imm := rfl
@[simp] theorem State.withView_phase (m : Memory) : (s.withView m).phase = s.phase := rfl
@[simp] theorem State.withView_busy (m : Memory) : (s.withView m).busy = s.busy := rfl
@[simp] theorem State.withView_done (m : Memory) : (s.withView m).done = s.done := rfl
@[simp] theorem State.withView_err (m : Memory) : (s.withView m).err = s.err := rfl
@[simp] theorem State.withView_errcode (m : Memory) : (s.withView m).errcode = s.errcode := rfl
@[simp] theorem State.withView_digest (m : Memory) : (s.withView m).digest = s.digest := rfl
@[simp] theorem State.withView_cmd (m : Memory) : (s.withView m).cmd = s.cmd := rfl
@[simp] theorem State.withView_resp (m : Memory) : (s.withView m).resp = s.resp := rfl
@[simp] theorem State.withView_view (m : Memory) : (s.withView m).view = m := rfl
@[simp] theorem State.withView_viewLen (m : Memory) : (s.withView m).viewLen = s.viewLen := rfl

/-! ### raise -/

@[simp] theorem State.raise_v1 (c : Cause) : (s.raise c).v1 = s.v1 := rfl
@[simp] theorem State.raise_v2 (c : Cause) : (s.raise c).v2 = s.v2 := rfl
@[simp] theorem State.raise_v3 (c : Cause) : (s.raise c).v3 = s.v3 := rfl
@[simp] theorem State.raise_v4 (c : Cause) : (s.raise c).v4 = s.v4 := rfl
@[simp] theorem State.raise_h (c : Cause) : (s.raise c).h = s.h := rfl
@[simp] theorem State.raise_seed (c : Cause) : (s.raise c).seed = s.seed := rfl
@[simp] theorem State.raise_len (c : Cause) : (s.raise c).len = s.len := rfl
@[simp] theorem State.raise_ptr (c : Cause) : (s.raise c).ptr = s.ptr := rfl
@[simp] theorem State.raise_rem (c : Cause) : (s.raise c).rem = s.rem := rfl
@[simp] theorem State.raise_val (c : Cause) : (s.raise c).val = s.val := rfl
@[simp] theorem State.raise_imm (c : Cause) : (s.raise c).imm = s.imm := rfl
@[simp] theorem State.raise_phase (c : Cause) : (s.raise c).phase = .idle := rfl
@[simp] theorem State.raise_busy (c : Cause) : (s.raise c).busy = false := rfl
@[simp] theorem State.raise_done (c : Cause) : (s.raise c).done = false := rfl
@[simp] theorem State.raise_err (c : Cause) : (s.raise c).err = true := rfl
@[simp] theorem State.raise_errcode (c : Cause) : (s.raise c).errcode = c.code := rfl
@[simp] theorem State.raise_digest (c : Cause) : (s.raise c).digest = none := rfl
@[simp] theorem State.raise_cmd (c : Cause) : (s.raise c).cmd = s.cmd := rfl
@[simp] theorem State.raise_resp (c : Cause) : (s.raise c).resp = s.resp ++ [.err c.code] := rfl
@[simp] theorem State.raise_view (c : Cause) : (s.raise c).view = s.view := rfl
@[simp] theorem State.raise_viewLen (c : Cause) : (s.raise c).viewLen = s.viewLen := rfl

/-! ### beginAccept -/

@[simp] theorem State.beginAccept_v1 : s.beginAccept.v1 = s.v1 := rfl
@[simp] theorem State.beginAccept_v2 : s.beginAccept.v2 = s.v2 := rfl
@[simp] theorem State.beginAccept_v3 : s.beginAccept.v3 = s.v3 := rfl
@[simp] theorem State.beginAccept_v4 : s.beginAccept.v4 = s.v4 := rfl
@[simp] theorem State.beginAccept_h : s.beginAccept.h = s.h := rfl
@[simp] theorem State.beginAccept_seed : s.beginAccept.seed = s.seed := rfl
@[simp] theorem State.beginAccept_len : s.beginAccept.len = s.len := rfl
@[simp] theorem State.beginAccept_ptr : s.beginAccept.ptr = s.ptr := rfl
@[simp] theorem State.beginAccept_rem : s.beginAccept.rem = s.rem := rfl
@[simp] theorem State.beginAccept_val : s.beginAccept.val = s.val := rfl
@[simp] theorem State.beginAccept_imm : s.beginAccept.imm = s.imm := rfl
@[simp] theorem State.beginAccept_phase : s.beginAccept.phase = s.phase := rfl
@[simp] theorem State.beginAccept_busy : s.beginAccept.busy = s.busy := rfl
@[simp] theorem State.beginAccept_done : s.beginAccept.done = false := rfl
@[simp] theorem State.beginAccept_err : s.beginAccept.err = false := rfl
@[simp] theorem State.beginAccept_errcode : s.beginAccept.errcode = 0x00#8 := rfl
@[simp] theorem State.beginAccept_digest : s.beginAccept.digest = none := rfl
@[simp] theorem State.beginAccept_cmd : s.beginAccept.cmd = none := rfl
@[simp] theorem State.beginAccept_resp : s.beginAccept.resp = s.resp := rfl
@[simp] theorem State.beginAccept_view : s.beginAccept.view = s.view := rfl
@[simp] theorem State.beginAccept_viewLen : s.beginAccept.viewLen = s.viewLen := rfl

/-! ### acceptHash -/

@[simp] theorem State.acceptHash_v1 (a b c : Word) : (s.acceptHash a b c).v1 = s.v1 := rfl
@[simp] theorem State.acceptHash_v2 (a b c : Word) : (s.acceptHash a b c).v2 = s.v2 := rfl
@[simp] theorem State.acceptHash_v3 (a b c : Word) : (s.acceptHash a b c).v3 = s.v3 := rfl
@[simp] theorem State.acceptHash_v4 (a b c : Word) : (s.acceptHash a b c).v4 = s.v4 := rfl
@[simp] theorem State.acceptHash_h (a b c : Word) : (s.acceptHash a b c).h = s.h := rfl
@[simp] theorem State.acceptHash_seed (a b c : Word) : (s.acceptHash a b c).seed = some a := rfl
@[simp] theorem State.acceptHash_len (a b c : Word) : (s.acceptHash a b c).len = some c := rfl
@[simp] theorem State.acceptHash_ptr (a b c : Word) : (s.acceptHash a b c).ptr = some b := rfl
@[simp] theorem State.acceptHash_rem (a b c : Word) : (s.acceptHash a b c).rem = some c := rfl
@[simp] theorem State.acceptHash_val (a b c : Word) : (s.acceptHash a b c).val = none := rfl
@[simp] theorem State.acceptHash_imm (a b c : Word) : (s.acceptHash a b c).imm = some false := rfl
@[simp] theorem State.acceptHash_phase (a b c : Word) : (s.acceptHash a b c).phase = .check := rfl
@[simp] theorem State.acceptHash_busy (a b c : Word) : (s.acceptHash a b c).busy = true := rfl
@[simp] theorem State.acceptHash_done (a b c : Word) : (s.acceptHash a b c).done = false := rfl
@[simp] theorem State.acceptHash_err (a b c : Word) : (s.acceptHash a b c).err = false := rfl
@[simp] theorem State.acceptHash_errcode (a b c : Word) : (s.acceptHash a b c).errcode = 0x00#8 := rfl
@[simp] theorem State.acceptHash_digest (a b c : Word) : (s.acceptHash a b c).digest = none := rfl
@[simp] theorem State.acceptHash_cmd (a b c : Word) : (s.acceptHash a b c).cmd = none := rfl
@[simp] theorem State.acceptHash_resp (a b c : Word) : (s.acceptHash a b c).resp = s.resp := rfl
@[simp] theorem State.acceptHash_view (a b c : Word) : (s.acceptHash a b c).view = s.view := rfl
@[simp] theorem State.acceptHash_viewLen (a b c : Word) : (s.acceptHash a b c).viewLen = s.viewLen := rfl

/-! ### acceptHashv -/

@[simp] theorem State.acceptHashv_v1 (v : Word) : (s.acceptHashv v).v1 = s.v1 := rfl
@[simp] theorem State.acceptHashv_v2 (v : Word) : (s.acceptHashv v).v2 = s.v2 := rfl
@[simp] theorem State.acceptHashv_v3 (v : Word) : (s.acceptHashv v).v3 = s.v3 := rfl
@[simp] theorem State.acceptHashv_v4 (v : Word) : (s.acceptHashv v).v4 = s.v4 := rfl
@[simp] theorem State.acceptHashv_h (v : Word) : (s.acceptHashv v).h = s.h := rfl
@[simp] theorem State.acceptHashv_seed (v : Word) : (s.acceptHashv v).seed = some 0#64 := rfl
@[simp] theorem State.acceptHashv_len (v : Word) : (s.acceptHashv v).len = some 8#64 := rfl
@[simp] theorem State.acceptHashv_ptr (v : Word) : (s.acceptHashv v).ptr = some 0#64 := rfl
@[simp] theorem State.acceptHashv_rem (v : Word) : (s.acceptHashv v).rem = some 8#64 := rfl
@[simp] theorem State.acceptHashv_val (v : Word) : (s.acceptHashv v).val = some v := rfl
@[simp] theorem State.acceptHashv_imm (v : Word) : (s.acceptHashv v).imm = some true := rfl
@[simp] theorem State.acceptHashv_phase (v : Word) : (s.acceptHashv v).phase = .sseed := rfl
@[simp] theorem State.acceptHashv_busy (v : Word) : (s.acceptHashv v).busy = true := rfl
@[simp] theorem State.acceptHashv_done (v : Word) : (s.acceptHashv v).done = false := rfl
@[simp] theorem State.acceptHashv_err (v : Word) : (s.acceptHashv v).err = false := rfl
@[simp] theorem State.acceptHashv_errcode (v : Word) : (s.acceptHashv v).errcode = 0x00#8 := rfl
@[simp] theorem State.acceptHashv_digest (v : Word) : (s.acceptHashv v).digest = none := rfl
@[simp] theorem State.acceptHashv_cmd (v : Word) : (s.acceptHashv v).cmd = none := rfl
@[simp] theorem State.acceptHashv_resp (v : Word) : (s.acceptHashv v).resp = s.resp := rfl
@[simp] theorem State.acceptHashv_view (v : Word) : (s.acceptHashv v).view = s.view := rfl
@[simp] theorem State.acceptHashv_viewLen (v : Word) : (s.acceptHashv v).viewLen = s.viewLen := rfl

end Sys2Proof.Machine
end

