-- ==== Sys2Proof/Laws/Ops.lean ====
section
/-! SUPPORT. What each shared operation can do: operands, reads of the view, the view's canonical form, next-phase
choices. -/

namespace Sys2Proof.Machine

/-! ### Operands -/

@[simp] theorem need_some {α : Type} (r : Reg) (x : α) (k : α → Out) : need r (some x) k = k x := rfl

@[simp] theorem need_none {α : Type} (r : Reg) (k : α → Out) : need r none k = .fault (.bottomRead r) := rfl

/-- A needed register that leads to a next state holds a value. -/
theorem need_next {α : Type} {r : Reg} {v : Option α} {k : α → Out} {t : State} :
    need r v k = .next t ↔ ∃ x, v = some x ∧ k x = .next t := by
  cases v <;> simp

/-- A fault of a needed register is its own, or the continuation's. -/
theorem need_fault {α : Type} {r : Reg} {v : Option α} {k : α → Out} {f : Fault} :
    need r v k = .fault f ↔ (v = none ∧ f = .bottomRead r) ∨ ∃ x, v = some x ∧ k x = .fault f := by
  cases v <;> simp [eq_comm]

theorem need_refused {α : Type} {r : Reg} {v : Option α} {k : α → Out} {q : Refusal} :
    need r v k = .refused q ↔ ∃ x, v = some x ∧ k x = .refused q := by
  cases v <;> simp

theorem withView_inside {s : State} {a n : Nat} (h : a + n ≤ s.viewLen) (k : Word → Out) :
    withView s a n k = k (leWord s.view.byteAt a n) := by simp [withView, h]

/-- A read that leads to a next state lies inside the view. -/
theorem withView_next {s : State} {a n : Nat} {k : Word → Out} {t : State} :
    withView s a n k = .next t ↔ a + n ≤ s.viewLen ∧ k (leWord s.view.byteAt a n) = .next t := by
  unfold withView; split <;> simp [*]

theorem withView_fault {s : State} {a n : Nat} {k : Word → Out} {f : Fault} :
    withView s a n k = .fault f ↔
      (s.viewLen < a + n ∧ f = .outsideView a n) ∨
        (a + n ≤ s.viewLen ∧ k (leWord s.view.byteAt a n) = .fault f) := by
  unfold withView; split <;> simp_all [eq_comm] <;> omega

theorem withView_refused {s : State} {a n : Nat} {k : Word → Out} {q : Refusal} :
    withView s a n k = .refused q ↔ a + n ≤ s.viewLen ∧ k (leWord s.view.byteAt a n) = .refused q := by
  unfold withView; split <;> simp [*]

/-- The data word of `T8`, when the step goes on: `VAL` for a `HASHV`, eight bytes of the view for a `HASH`. -/
theorem withTailWord_next {s : State} {p : Word} {k : Word → Out} {t : State} :
    withTailWord s p k = .next t ↔
      (s.imm = some true ∧ ∃ v, s.val = some v ∧ k v = .next t) ∨
      (s.imm = some false ∧ p.toNat + 8 ≤ s.viewLen ∧ k (leWord s.view.byteAt p.toNat 8) = .next t) := by
  unfold withTailWord
  rw [need_next]
  constructor
  · rintro ⟨b, hb, hk⟩
    cases b
    · exact .inr ⟨hb, withView_next.1 (by simpa using hk)⟩
    · exact .inl ⟨hb, need_next.1 (by simpa using hk)⟩
  · rintro (⟨hb, hk⟩ | ⟨hb, hk⟩)
    · exact ⟨true, hb, by simpa using need_next.2 hk⟩
    · exact ⟨false, hb, by simpa using withView_next.2 hk⟩

/-! ### The view's bytes -/

@[simp] theorem Memory.byteAt_nil (a : Nat) : Memory.byteAt [] a = Config.unlistedByte := rfl

theorem Memory.byteAt_cons (a' a : Nat) (b : Byte) (m : Memory) :
    Memory.byteAt ((a', b) :: m) a = if a' = a then b else Memory.byteAt m a := rfl

/-- Below the first cell of a canonical view nothing is listed. -/
theorem Memory.byteAt_below {lo hi : Nat} {m : Memory} (h : Memory.wfFrom lo hi m = true) {a : Nat} (ha : a < lo) :
    Memory.byteAt m a = Config.unlistedByte := by
  induction m generalizing lo with
  | nil => rfl
  | cons c m ih =>
    obtain ⟨a', b⟩ := c
    simp only [Memory.wfFrom, Bool.and_eq_true, decide_eq_true_eq] at h
    rw [Memory.byteAt_cons, if_neg (by omega)]
    exact ih h.2 (by omega)

/-- A smaller lower bound and a larger upper bound keep the canonical form. -/
theorem Memory.wfFrom_mono {lo lo' hi : Nat} {m : Memory} (h : Memory.wfFrom lo hi m = true) (hl : lo' ≤ lo) :
    Memory.wfFrom lo' hi m = true := by
  cases m with
  | nil => rfl
  | cons c m =>
    simp only [Memory.wfFrom, Bool.and_eq_true, decide_eq_true_eq] at h ⊢
    exact ⟨⟨⟨by omega, h.1.1.2⟩, h.1.2⟩, h.2⟩

/-- A write keeps the canonical form. -/
theorem Memory.write_wfFrom {lo hi : Nat} {m : Memory} (h : Memory.wfFrom lo hi m = true) {a : Nat} (hlo : lo ≤ a)
    (hhi : a < hi) (b : Byte) : Memory.wfFrom lo hi (Memory.write m a b) = true := by
  induction m generalizing lo with
  | nil => by_cases hb : b = Config.unlistedByte <;> simp [Memory.write, Memory.wfFrom, hb, hlo, hhi]
  | cons c m ih =>
    obtain ⟨a', b'⟩ := c
    simp only [Memory.wfFrom, Bool.and_eq_true, decide_eq_true_eq, bne_iff_ne, ne_eq] at h
    obtain ⟨⟨⟨h1, h2⟩, h3⟩, h4⟩ := h
    unfold Memory.write
    split
    · split
      · simp [Memory.wfFrom, h1, h2, h3, h4]
      · next hb => simp [Memory.wfFrom, hlo, hhi, hb, h2, h3, h4]; omega
    · split
      · split
        · exact Memory.wfFrom_mono h4 (by omega)
        · next e hb => subst e; simp [Memory.wfFrom, hlo, hhi, hb, h4]
      · simp [Memory.wfFrom, h1, h2, h3]
        exact ih h4 (by omega)

/-- A canonical view stays canonical under a write inside it. -/
theorem Memory.write_wf {n : Nat} {m : Memory} (h : Memory.wf n m = true) {a : Nat} (ha : a < n) (b : Byte) :
    Memory.wf n (Memory.write m a b) = true := Memory.write_wfFrom h (Nat.zero_le a) ha b

/-- The byte written reads back. -/
theorem Memory.byteAt_write_same {lo hi : Nat} {m : Memory} (h : Memory.wfFrom lo hi m = true) (a : Nat) (b : Byte) :
    Memory.byteAt (Memory.write m a b) a = b := by
  induction m generalizing lo with
  | nil => by_cases hb : b = Config.unlistedByte <;> simp [Memory.write, hb, Memory.byteAt_cons]
  | cons c m ih =>
    obtain ⟨a', b'⟩ := c
    simp only [Memory.wfFrom, Bool.and_eq_true, decide_eq_true_eq, bne_iff_ne, ne_eq] at h
    unfold Memory.write
    split
    · split
      · next hb =>
        rw [Memory.byteAt_cons, if_neg (by omega), Memory.byteAt_below h.2 (by omega), hb]
      · simp [Memory.byteAt_cons]
    · split
      · next e =>
        split
        · next hb => rw [Memory.byteAt_below h.2 (by omega), hb]
        · simp [Memory.byteAt_cons]
      · rw [Memory.byteAt_cons, if_neg (by omega)]
        exact ih h.2

/-- A write leaves every other byte alone. -/
theorem Memory.byteAt_write_other (m : Memory) {a a' : Nat} (b : Byte) (h : a' ≠ a) :
    Memory.byteAt (Memory.write m a b) a' = Memory.byteAt m a' := by
  induction m with
  | nil => by_cases hb : b = Config.unlistedByte <;> simp [Memory.write, hb, Memory.byteAt_cons, Ne.symm h]
  | cons c m ih =>
    obtain ⟨a'', b''⟩ := c
    unfold Memory.write
    split
    · split
      · rfl
      · simp [Memory.byteAt_cons, Ne.symm h]
    · split
      · next e =>
        have h2 : a'' ≠ a' := by omega
        split <;> simp [Memory.byteAt_cons, Ne.symm h, h2]
      · simp only [Memory.byteAt_cons, ih]

/-- A placed image is canonical. -/
theorem Memory.ofBytesFrom_wfFrom (a : Nat) (bs : List Byte) :
    Memory.wfFrom a (a + bs.length) (Memory.ofBytesFrom a bs) = true := by
  induction bs generalizing a with
  | nil => rfl
  | cons b bs ih =>
    have h := ih (a + 1)
    rw [show a + 1 + bs.length = a + (b :: bs).length by simp; omega] at h
    unfold Memory.ofBytesFrom
    split
    · exact Memory.wfFrom_mono h (by omega)
    · next hb => simp [Memory.wfFrom, hb] at h ⊢; exact h

/-- The reset state's view is canonical. -/
theorem reset_view_wf : Memory.wf State.reset.viewLen State.reset.view = true := rfl

/-- A placed image reads as its bytes. -/
theorem Memory.byteAt_ofBytesFrom (a : Nat) (bs : List Byte) (i : Nat) :
    Memory.byteAt (Memory.ofBytesFrom a bs) (a + i) = bs.getD i Config.unlistedByte := by
  induction bs generalizing a i with
  | nil => simp [Memory.ofBytesFrom]
  | cons b bs ih =>
    unfold Memory.ofBytesFrom
    cases i with
    | zero =>
      split
      · next hb =>
        rw [Memory.byteAt_below (Memory.ofBytesFrom_wfFrom (a + 1) bs) (by omega)]
        simp [hb]
      · simp [Memory.byteAt_cons]
    | succ i =>
      have h := ih (a + 1) i
      rw [show a + 1 + i = a + (i + 1) by omega] at h
      split
      · simpa using h
      · rw [Memory.byteAt_cons, if_neg (by omega)]
        simpa using h

/-! ### Little-endian words -/

@[simp] theorem leNat_zero (f : Nat → Byte) (a : Nat) : leNat f a 0 = 0 := rfl

theorem leNat_succ (f : Nat → Byte) (a n : Nat) :
    leNat f a (n + 1) = leNat f a n + (f (a + n)).toNat * 2 ^ (8 * n) := rfl

/-- `n` bytes make a number below `2 ^ (8 n)`. -/
theorem leNat_lt (f : Nat → Byte) (a n : Nat) : leNat f a n < 2 ^ (8 * n) := by
  induction n with
  | zero => simp
  | succ n ih =>
    have hb : (f (a + n)).toNat ≤ 255 := by have := (f (a + n)).isLt; omega
    have hm : (f (a + n)).toNat * 2 ^ (8 * n) ≤ 255 * 2 ^ (8 * n) := Nat.mul_le_mul_right _ hb
    have hp : 2 ^ (8 * (n + 1)) = 256 * 2 ^ (8 * n) := by rw [Nat.mul_succ, Nat.pow_add]; omega
    rw [leNat_succ]; omega

/-- Up to eight bytes fit a word. -/
theorem leWord_toNat (f : Nat → Byte) (a : Nat) {n : Nat} (hn : n ≤ 8) : (leWord f a n).toNat = leNat f a n := by
  have h := leNat_lt f a n
  have h2 : 2 ^ (8 * n) ≤ 2 ^ 64 := Nat.pow_le_pow_right (by omega) (by omega)
  simp only [leWord, BitVec.toNat_ofNat]
  exact Nat.mod_eq_of_lt (by omega)

/-- A word depends on its own bytes only. -/
theorem leNat_congr {f g : Nat → Byte} {a c n : Nat} (h : ∀ i < n, f (a + i) = g (c + i)) :
    leNat f a n = leNat g c n := by
  induction n with
  | zero => rfl
  | succ n ih => rw [leNat_succ, leNat_succ, ih fun i hi => h i (by omega), h n (by omega)]

theorem leWord_congr {f g : Nat → Byte} {a c n : Nat} (h : ∀ i < n, f (a + i) = g (c + i)) :
    leWord f a n = leWord g c n := by rw [leWord, leWord, leNat_congr h]

/-! ### Next-phase choices and acceptance -/

theorem nextTail_cases (r : Word) :
    (8 ≤ r.toNat ∧ nextTail r = .t8) ∨ (4 ≤ r.toNat ∧ r.toNat < 8 ∧ nextTail r = .t4) ∨
      (1 ≤ r.toNat ∧ r.toNat < 4 ∧ nextTail r = .t1) ∨ (r.toNat = 0 ∧ nextTail r = .aval) := by
  unfold nextTail
  by_cases h8 : 8 ≤ r.toNat
  · simp [h8]
  · by_cases h4 : 4 ≤ r.toNat
    · simp [h8, h4]; omega
    · by_cases h1 : 1 ≤ r.toNat
      · simp [h8, h4, h1]; omega
      · simp [h8, h4, h1]; omega

/-- A decoded descriptor is a HASH, a HASHV or illegal, never a micro-operation. -/
theorem decodeCommand_cases (c : Descriptor) :
    (∃ a b d, decodeCommand c = .instr (.hash a b d)) ∨ (∃ v, decodeCommand c = .instr (.hashv v)) ∨
      (∃ w, decodeCommand c = .illegal w) := by
  unfold decodeCommand
  split
  · exact .inr (.inr ⟨_, rfl⟩)
  · split
    · exact .inl ⟨_, _, _, rfl⟩
    · split
      · exact .inr (.inl ⟨_, rfl⟩)
      · exact .inr (.inr ⟨_, rfl⟩)

@[simp] theorem acceptDecoded_hash (s : State) (a b d : Word) :
    s.acceptDecoded (.instr (.hash a b d)) = s.acceptHash a b d := rfl

@[simp] theorem acceptDecoded_hashv (s : State) (v : Word) :
    s.acceptDecoded (.instr (.hashv v)) = s.acceptHashv v := rfl

@[simp] theorem acceptDecoded_illegal (s : State) (w : Illegal) :
    s.acceptDecoded (.illegal w) = s.beginAccept.raise .illegalCmd := rfl

/-- The PHASE code selects the phase's own micro-operation. -/
@[simp] theorem decodeMicro_code (p : Phase) : decodeMicro p.code = p.instr := by cases p <;> rfl

/-- A step performs the micro-operation of its PHASE. -/
theorem step_eq (s : State) : step s = exec s.phase.instr s := by
  rw [step, State.fetch, decodeMicro_code]

end Sys2Proof.Machine
end

