-- ==== Sys2Proof/Laws/Exec.lean ====
section
/-! SUPPORT. One inversion lemma per meaning: everything it needs and everything it does when it leads to a next
state. -/

namespace Sys2Proof.Machine

variable {s t : State}

theorem next_eq {a : State} : (Host.Outcome.next a : Out) = .next t ↔ t = a := by simp [eq_comm]

theorem execHash_next {a b c : Word} :
    execHash a b c s = .next t ↔
      (s.phase = .idle ∧ t = s.acceptHash a b c) ∨ (s.phase ≠ .idle ∧ t = s) := by
  unfold execHash; split <;> simp [*, eq_comm (b := t)]

theorem execHashv_next {v : Word} :
    execHashv v s = .next t ↔
      (s.phase = .idle ∧ t = s.acceptHashv v) ∨ (s.phase ≠ .idle ∧ t = s) := by
  unfold execHashv; split <;> simp [*, eq_comm (b := t)]

/-- Everything ACCEPT can do: take a HASH, take a HASHV, raise ILLEGAL_CMD, or change nothing. -/
theorem execAccept_next :
    execAccept s = .next t ↔
      (∃ d a b c, s.phase = .idle ∧ s.cmd = some d ∧ decodeCommand d = .instr (.hash a b c) ∧
        t = s.acceptHash a b c) ∨
      (∃ d v, s.phase = .idle ∧ s.cmd = some d ∧ decodeCommand d = .instr (.hashv v) ∧ t = s.acceptHashv v) ∨
      (∃ d w, s.phase = .idle ∧ s.cmd = some d ∧ decodeCommand d = .illegal w ∧
        t = s.beginAccept.raise .illegalCmd) ∨
      ((s.phase = .idle → s.cmd = none) ∧ t = s) := by
  unfold execAccept
  by_cases hp : s.phase = .idle
  · cases hc : s.cmd with
    | none => simp [hp, eq_comm]
    | some d =>
      obtain ⟨a, b, c, hd⟩ | ⟨v, hd⟩ | ⟨w, hd⟩ := decodeCommand_cases d
      · simp [hp, hd, eq_comm (b := t), and_assoc]
      · simp [hp, hd, eq_comm (b := t)]
      · simp [hp, hd, eq_comm (b := t)]
  · simp [hp, eq_comm]

theorem execCheck_next :
    execCheck s = .next t ↔ ∃ ptr len, s.ptr = some ptr ∧ s.len = some len ∧
      ((boundsViolated ptr len s.viewLen = true ∧ t = s.raise .bounds) ∨
        (boundsViolated ptr len s.viewLen = false ∧ t = s.goTo (pathOf len))) := by
  simp only [execCheck, need_next]
  constructor
  · rintro ⟨ptr, hp, len, hl, h⟩
    refine ⟨ptr, len, hp, hl, ?_⟩
    split at h
    · next hb => exact .inl ⟨hb, next_eq.1 h⟩
    · next hb => exact .inr ⟨by simpa using hb, next_eq.1 h⟩
  · rintro ⟨ptr, len, hp, hl, ⟨hb, rfl⟩ | ⟨hb, rfl⟩⟩
    · exact ⟨ptr, hp, len, hl, by simp [hb]⟩
    · exact ⟨ptr, hp, len, hl, by simp [hb]⟩

theorem execLinit_next :
    execLinit s = .next t ↔ ∃ seed, s.seed = some seed ∧
      t = (s.setLanes (laneInit1 seed) (laneInit2 seed) (laneInit3 seed) (laneInit4 seed)).goTo .blk := by
  simp [execLinit, need_next, eq_comm (b := t)]

theorem execBlk_next :
    execBlk s = .next t ↔ ∃ v1 v2 v3 v4 ptr rem,
      s.v1 = some v1 ∧ s.v2 = some v2 ∧ s.v3 = some v3 ∧ s.v4 = some v4 ∧ s.ptr = some ptr ∧ s.rem = some rem ∧
      ptr.toNat + 32 ≤ s.viewLen ∧
      t = ((s.setLanes (mix v1 (leWord s.view.byteAt ptr.toNat 8)) (mix v2 (leWord s.view.byteAt (ptr.toNat + 8) 8))
        (mix v3 (leWord s.view.byteAt (ptr.toNat + 16) 8)) (mix v4 (leWord s.view.byteAt (ptr.toNat + 24) 8))).consume
          ptr rem 32#64).goTo (nextBlock (rem - 32#64)) := by
  simp only [execBlk, need_next, withView_next, Host.Outcome.next.injEq]
  constructor
  · rintro ⟨v1, h1, v2, h2, v3, h3, v4, h4, ptr, hp, rem, hr, -, -, -, hv, rfl⟩
    exact ⟨v1, v2, v3, v4, ptr, rem, h1, h2, h3, h4, hp, hr, by omega, rfl⟩
  · rintro ⟨v1, v2, v3, v4, ptr, rem, h1, h2, h3, h4, hp, hr, hv, rfl⟩
    exact ⟨v1, h1, v2, h2, v3, h3, v4, h4, ptr, hp, rem, hr, by omega, by omega, by omega, by omega, rfl⟩

theorem execFold_next :
    execFold s = .next t ↔ ∃ v1 v2 v3 v4, s.v1 = some v1 ∧ s.v2 = some v2 ∧ s.v3 = some v3 ∧ s.v4 = some v4 ∧
      t = (s.setH (foldLanes v1 v2 v3 v4)).goTo .mrg1 := by
  simp only [execFold, need_next, Host.Outcome.next.injEq]
  constructor
  · rintro ⟨v1, h1, v2, h2, v3, h3, v4, h4, rfl⟩; exact ⟨v1, v2, v3, v4, h1, h2, h3, h4, rfl⟩
  · rintro ⟨v1, v2, v3, v4, h1, h2, h3, h4, rfl⟩; exact ⟨v1, h1, v2, h2, v3, h3, v4, h4, rfl⟩

theorem mergeLane_next {r : Reg} {lane : Option Word} {p : Phase} :
    mergeLane r lane p s = .next t ↔ ∃ h v, s.h = some h ∧ lane = some v ∧ t = (s.setH (update h v)).goTo p := by
  simp [mergeLane, need_next, eq_comm (b := t)]

theorem execMrg4_next :
    execMrg4 s = .next t ↔ ∃ h v, s.h = some h ∧ s.v4 = some v ∧
      t = ((s.setH (update h v)).dropLanes).goTo .addlen := by
  simp [execMrg4, need_next, eq_comm (b := t)]

theorem execSseed_next :
    execSseed s = .next t ↔ ∃ seed, s.seed = some seed ∧ t = (s.setH (seed + P5)).goTo .addlen := by
  simp [execSseed, need_next, eq_comm (b := t)]

theorem execAddlen_next :
    execAddlen s = .next t ↔ ∃ h len rem, s.h = some h ∧ s.len = some len ∧ s.rem = some rem ∧
      t = (s.setH (h + len)).goTo (nextTail rem) := by
  simp [execAddlen, need_next, eq_comm (b := t)]

/-- Everything T8 can do: its word comes from VAL in a HASHV and from the view in a HASH. -/
theorem execT8_next :
    execT8 s = .next t ↔ ∃ h ptr rem w, s.h = some h ∧ s.ptr = some ptr ∧ s.rem = some rem ∧
      ((s.imm = some true ∧ s.val = some w) ∨
        (s.imm = some false ∧ ptr.toNat + 8 ≤ s.viewLen ∧ w = leWord s.view.byteAt ptr.toNat 8)) ∧
      t = ((s.setH (tail8 h w)).consume ptr rem 8#64).goTo (nextTail (rem - 8#64)) := by
  simp only [execT8, need_next, withTailWord_next, Host.Outcome.next.injEq]
  constructor
  · rintro ⟨h, hh, ptr, hp, rem, hr, ⟨hi, v, hv, rfl⟩ | ⟨hi, hv, rfl⟩⟩
    · exact ⟨h, ptr, rem, v, hh, hp, hr, .inl ⟨hi, hv⟩, rfl⟩
    · exact ⟨h, ptr, rem, _, hh, hp, hr, .inr ⟨hi, hv, rfl⟩, rfl⟩
  · rintro ⟨h, ptr, rem, w, hh, hp, hr, ⟨hi, hv⟩ | ⟨hi, hv, rfl⟩, rfl⟩
    · exact ⟨h, hh, ptr, hp, rem, hr, .inl ⟨hi, w, hv, rfl⟩⟩
    · exact ⟨h, hh, ptr, hp, rem, hr, .inr ⟨hi, hv, rfl⟩⟩

theorem execT4_next :
    execT4 s = .next t ↔ ∃ h ptr rem, s.h = some h ∧ s.ptr = some ptr ∧ s.rem = some rem ∧
      ptr.toNat + 4 ≤ s.viewLen ∧
      t = ((s.setH (tail4 h (leWord s.view.byteAt ptr.toNat 4))).consume ptr rem 4#64).goTo (nextTail (rem - 4#64)) := by
  simp [execT4, need_next, withView_next, eq_comm (b := t)]

theorem execT1_next :
    execT1 s = .next t ↔ ∃ h ptr rem, s.h = some h ∧ s.ptr = some ptr ∧ s.rem = some rem ∧
      ptr.toNat + 1 ≤ s.viewLen ∧
      t = ((s.setH (tail1 h (leWord s.view.byteAt ptr.toNat 1))).consume ptr rem 1#64).goTo (nextTail (rem - 1#64)) := by
  simp [execT1, need_next, withView_next, eq_comm (b := t)]

theorem execAval_next :
    execAval s = .next t ↔ ∃ h, s.h = some h ∧ t = (s.setH (avalanche h)).goTo .ret := by
  simp [execAval, need_next, eq_comm (b := t)]

theorem execRet_next :
    execRet s = .next t ↔ ∃ h, s.h = some h ∧ t = (((s.setDone h).emit (.ok h)).dropH).goTo .idle := by
  simp [execRet, need_next, eq_comm (b := t)]

end Sys2Proof.Machine
end

