-- ==== Sys2Proof/Laws/HostPort.lean ====
section
/-! SUPPORT. What each of the host's moves on the slot and the view can do: one lemma says when it succeeds and what the
state is then. -/

namespace Sys2Proof.Machine

variable {s t : State}

/-- A descriptor is presented exactly into an empty slot. -/
theorem present_some {c : Descriptor} :
    s.present c = some t ↔ s.cmd = none ∧ t = { s with cmd := some c } := by
  unfold State.present
  cases s.cmd <;> simp [eq_comm]

/-- No HASH waits exactly when the slot's descriptor, if any, decodes to something else. -/
theorem hashWaiting_false :
    s.hashWaiting = false ↔ ∀ c a b d, s.cmd = some c → decodeCommand c ≠ .instr (.hash a b d) := by
  unfold State.hashWaiting
  cases s.cmd with
  | none => simp
  | some c =>
    obtain ⟨a, b, d, h⟩ | ⟨v, h⟩ | ⟨w, h⟩ := decodeCommand_cases c
    · simp [h]
    · simp only [h, true_iff]
      rintro _ a b d ⟨rfl⟩
      simp [h]
    · simp only [h, true_iff]
      rintro _ a b d ⟨rfl⟩
      simp [h]

/-- No HASH runs exactly when the engine is idle or runs a HASHV. -/
theorem hashRunning_false : s.hashRunning = false ↔ (s.busy = true → s.imm = some true) := by
  unfold State.hashRunning
  cases s.busy <;> simp

/-- When the host may write the view. -/
theorem viewWritable_iff : s.viewWritable = true ↔ s.hashWaiting = false ∧ s.hashRunning = false := by
  simp [State.viewWritable]

/-- A byte is written exactly when the host may write the view and the address lies inside it. -/
theorem writeView_some {a : Nat} {b : Byte} :
    s.writeView a b = some t ↔ s.viewWritable = true ∧ a < s.viewLen ∧ t = { s with view := s.view.write a b } := by
  unfold State.writeView
  cases s.viewWritable
  · simp
  · by_cases h : a < s.viewLen <;> simp [h, eq_comm]

/-- An image is placed exactly when the host may write the view and R8 admits its length. -/
theorem placeView_some {bytes : List Byte} :
    s.placeView bytes = some t ↔ s.viewWritable = true ∧ bytes.length ≤ Config.maxViewLen ∧
      t = { s with view := Memory.ofBytesFrom 0 bytes, viewLen := bytes.length } := by
  unfold State.placeView
  cases s.viewWritable
  · simp
  · by_cases h : bytes.length ≤ Config.maxViewLen <;> simp [h, eq_comm]

end Sys2Proof.Machine
end

