-- ==== Sys2Proof/Laws/Invariant.lean ====
section
/-! SUPPORT. The invariant's latch condition as a proposition, and arithmetic the count REM needs. -/

namespace Sys2Proof.Machine

/-- `latchesFit`, spelled out: which latches hold values and what they satisfy. -/
theorem latchesFit_iff (s : State) :
    latchesFit s = true ↔ ∃ seed len ptr rem imm,
      s.seed = some seed ∧ s.len = some len ∧ s.ptr = some ptr ∧ s.rem = some rem ∧ s.imm = some imm ∧
      remFits s.phase len.toNat rem.toNat = true ∧ rem.toNat ≤ len.toNat ∧
      (imm = true → s.val.isSome = true ∧ Phase.ofHashv s.phase = true ∧ len = 8#64 ∧ (rem = 8#64 ∨ rem = 0#64) ∧
        (s.phase = .t8 → rem = 8#64) ∧ (s.phase = .addlen → rem = 8#64) ∧ (s.phase = .sseed → seed = 0#64)) ∧
      (imm = false → s.val = none ∧ (s.phase = .check ∨ ptr.toNat + rem.toNat ≤ s.viewLen)) := by
  unfold latchesFit
  cases s.seed with
  | none => simp
  | some seed =>
  cases s.len with
  | none => simp
  | some len =>
  cases s.ptr with
  | none => simp
  | some ptr =>
  cases s.rem with
  | none => simp
  | some rem =>
  cases s.imm with
  | none => simp
  | some imm => cases imm <;> simp [and_assoc, Decidable.imp_iff_not_or]

/-- The view's condition carries over to a state with the same view. -/
theorem ViewFits.of_eq {s t : State} (h : ViewFits s) (hv : t.view = s.view) (hl : t.viewLen = s.viewLen) :
    ViewFits t := by
  unfold ViewFits
  rw [hv, hl]
  exact h

/-- In a sound state the view ends below `2 ^ 63`. -/
theorem Inv.viewLen_lt {s : State} (h : Inv s) : s.viewLen < 2 ^ 63 := by
  have := h.view.2
  simp only [Config.maxViewLen] at this
  omega

/-- `REM - n` when at least `n` bytes are left. -/
theorem toNat_sub_of_le {r : Word} {n : Nat} (h : n ≤ r.toNat) : (r - BitVec.ofNat 64 n).toNat = r.toNat - n := by
  have hn : n < 2 ^ 64 := Nat.lt_of_le_of_lt h r.isLt
  have hk : (BitVec.ofNat 64 n).toNat = n := by rw [BitVec.toNat_ofNat, Nat.mod_eq_of_lt hn]
  have hle : BitVec.ofNat 64 n ≤ r := by rw [BitVec.le_def, hk]; exact h
  rw [BitVec.toNat_sub_of_le hle, hk]

/-- `PTR + n` when the sum stays in the address range. -/
theorem toNat_add_of_lt {p : Word} {n : Nat} (h : p.toNat + n < 2 ^ 64) :
    (p + BitVec.ofNat 64 n).toNat = p.toNat + n := by
  have hn : n < 2 ^ 64 := by omega
  rw [BitVec.toNat_add, BitVec.toNat_ofNat, Nat.mod_eq_of_lt hn, Nat.mod_eq_of_lt h]

end Sys2Proof.Machine
end

