-- ==== Sys2Proof/Laws/PerInstr.lean ====
section
/-! SUPPORT. Per instruction: its encoded word carries the match value of its row of `spec/opcode_table.json` under the
row's mask. -/

namespace Sys2Proof.Laws.TableRow

/-- The number an encoded instruction's bits stand for, numbered as the opcode table numbers them. -/
def number : Encoded → Nat
  | .command c => c.toNat
  | .micro code => code.toNat

/-- The row of the opcode table of each instruction: match, then mask. -/
def row : Instr → Nat × Nat
  | .hash _ _ _ => (0x1, 0xFFFFFFFFFFFFFFFF)
  | .hashv _ => (0x2, 0xFFFFFFFFFFFFFFFF)
  | .accept => (0x0, 0xF)
  | .check => (0x1, 0xF)
  | .linit => (0x2, 0xF)
  | .blk => (0x3, 0xF)
  | .fold => (0x4, 0xF)
  | .mrg1 => (0x5, 0xF)
  | .mrg2 => (0x6, 0xF)
  | .mrg3 => (0x7, 0xF)
  | .mrg4 => (0x8, 0xF)
  | .sseed => (0x9, 0xF)
  | .addlen => (0xA, 0xF)
  | .t8 => (0xB, 0xF)
  | .t4 => (0xC, 0xF)
  | .t1 => (0xD, 0xF)
  | .aval => (0xE, 0xF)
  | .ret => (0xF, 0xF)

/-- The encoded word matches the instruction's own row. -/
def Statement (i : Instr) : Prop := number (encode i) &&& (row i).2 = (row i).1

/-- The low 64 bits of a descriptor are its opcode, RSV0 being zero. -/
theorem descriptor_low (a b c : Word) (o : Byte) :
    (descriptor a b c o).toNat &&& 0xFFFFFFFFFFFFFFFF = o.toNat := by
  have h : (descriptor a b c o).setWidth 64 = (0#56 ++ o : BitVec 64) := by
    unfold descriptor
    rw [BitVec.setWidth_append]; simp
  have h' := congrArg BitVec.toNat h
  rw [BitVec.toNat_setWidth, BitVec.toNat_append] at h'
  rw [show (0xFFFFFFFFFFFFFFFF : Nat) = 2 ^ 64 - 1 by decide, Nat.and_two_pow_sub_one_eq_mod, h']
  simp

theorem hash (seed offset length : Word) : Statement (.hash seed offset length) := descriptor_low _ _ _ _
theorem hashv (value : Word) : Statement (.hashv value) := descriptor_low _ _ _ _
theorem accept : Statement .accept := rfl
theorem check : Statement .check := rfl
theorem linit : Statement .linit := rfl
theorem blk : Statement .blk := rfl
theorem fold : Statement .fold := rfl
theorem mrg1 : Statement .mrg1 := rfl
theorem mrg2 : Statement .mrg2 := rfl
theorem mrg3 : Statement .mrg3 := rfl
theorem mrg4 : Statement .mrg4 := rfl
theorem sseed : Statement .sseed := rfl
theorem addlen : Statement .addlen := rfl
theorem t8 : Statement .t8 := rfl
theorem t4 : Statement .t4 := rfl
theorem t1 : Statement .t1 := rfl
theorem aval : Statement .aval := rfl
theorem ret : Statement .ret := rfl

end Sys2Proof.Laws.TableRow
end

