-- ==== Sys2Proof/Laws/Runs.lean ====
section
/-! SUPPORT. Runs and the phases of a run, one step at a time. -/

namespace Sys2Proof.Machine

variable {k n : Nat} {s t u : State}

@[simp] theorem runs_zero (s : State) : runs 0 s = .next s := rfl

/-- One step, then `k` more. -/
theorem runs_succ (h : step s = .next t) : runs (k + 1) s = runs k t := by
  simp only [runs, h]

theorem runs_fault {f : Fault} (h : step s = .fault f) : runs (k + 1) s = .fault f := by
  simp only [runs, h]

theorem runs_refused {f : Refusal} (h : step s = .refused f) : runs (k + 1) s = .refused f := by
  simp only [runs, h]

/-- The run is the host's run of this core. -/
theorem runs_eq_core_run (k : Nat) (s : State) : runs k s = Sys2Proof.core.run k s := by
  induction k generalizing s with
  | zero => rfl
  | succ k ih =>
    cases h : step s with
    | next t =>
      have h' : Sys2Proof.core.step s = .next t := h
      rw [runs_succ h, ih]
      simp only [Host.Core.run, h']
      rfl
    | fault f =>
      have h' : Sys2Proof.core.step s = .fault f := h
      rw [runs_fault h]
      simp only [Host.Core.run, h']
      rfl
    | refused f =>
      have h' : Sys2Proof.core.step s = .refused f := h
      rw [runs_refused h]
      simp only [Host.Core.run, h']
      rfl

theorem runsTo_zero : RunsTo 0 s s := rfl

theorem runsTo_one (h : step s = .next t) : RunsTo 1 s t := (runs_succ h).trans rfl

theorem runsTo_succ (h : step s = .next t) (h' : RunsTo k t u) : RunsTo (k + 1) s u := (runs_succ h).trans h'

/-- Runs compose. -/
theorem runsTo_trans (h : RunsTo k s t) (h' : RunsTo n t u) : RunsTo (k + n) s u := by
  induction k generalizing s with
  | zero =>
    obtain rfl : s = t := by simpa [RunsTo] using h
    simpa using h'
  | succ k ih =>
    cases hs : step s with
    | next s' =>
      have h2 : RunsTo k s' t := (runs_succ hs).symm.trans h
      rw [show k + 1 + n = k + n + 1 by omega]
      exact runsTo_succ hs (ih h2)
    | fault f =>
      rw [RunsTo, runs_fault hs] at h
      cases h
    | refused f =>
      rw [RunsTo, runs_refused hs] at h
      cases h

@[simp] theorem phasesOf_zero (s : State) : phasesOf 0 s = [] := rfl

/-- The first phase of a run, then the phases of the rest. -/
theorem phasesOf_succ (h : step s = .next t) : phasesOf (k + 1) s = s.phase :: phasesOf k t := by
  show s.phase :: (match step s with
    | .next t => phasesOf k t
    | .fault _ => []
    | .refused _ => []) = _
  rw [h]

end Sys2Proof.Machine
end

