-- ==== Sys2Proof/Laws/System.lean ====
section
/-! SUPPORT. What a step of one engine instance can do. -/

namespace Sys2Proof.Machine

/-- An instance that leads to a next system has taken the engine's step, and the list changed there alone. -/
theorem stepEngine_next {y z : System} {k : Nat} :
    y.stepEngine k = some (.next z) ↔
      ∃ s t, y.engines[k]? = some s ∧ step s = .next t ∧ z = ⟨y.engines.set k t⟩ := by
  unfold System.stepEngine
  cases y.engines[k]? with
  | none => simp
  | some s => cases h : step s <;> simp [h, eq_comm]

end Sys2Proof.Machine
end

