-- ==== Sys2Proof/Tests/Slice0.lean ====
section
/-! SUPPORT. Tests: ill-formed terms, words written out from the encodings, one step per instruction, and a witness for
every statement's hypotheses. Expected values are those of spec/95_test_vectors.md and spec/96_test_programs.md, named
by their ids, unless a comment says how they were worked out. -/

open Sys2Proof Sys2Proof.Machine

namespace Sys2Proof.Tests

/-- `pat(n)`: the bytes 00 01 02 ... -/
def pat (n : Nat) : List Byte := (List.range n).map (BitVec.ofNat 8)

/-- The reset state over a view that holds exactly the given bytes. -/
def viewOf (bytes : List Byte) : State := State.resetWith (Memory.ofBytesFrom 0 bytes) bytes.length

/-- A `HASH` of `len` bytes in execution over a view, with the given PTR and REM. -/
def running (bytes : List Byte) (len ptr rem : Word) : State :=
  { viewOf bytes with
    busy := true, seed := some 0, len := some len, ptr := some ptr, rem := some rem, imm := some false }

/-- The lanes of a state set. -/
def withLanes (a b c d : Word) (s : State) : State :=
  { s with v1 := some a, v2 := some b, v3 := some c, v4 := some d }

/-- `H` and PHASE of a state set. -/
def withH (x : Word) (p : Phase) (s : State) : State := { s with h := some x, phase := p }

/-- A field of the next state, if there is one. -/
def field {α : Type} (f : State → α) : Out → Option α
  | .next t => some (f t)
  | .fault _ => none
  | .refused _ => none

def lanesOf (s : State) : List (Option Word) := [s.v1, s.v2, s.v3, s.v4]

/-- What of a state a control micro-operation is tested on. -/
def flagsOf (s : State) : BitVec 8 × BitVec 8 × List Response × Phase := (s.status, s.errcode, s.resp, s.phase)

/-- PTR, REM, PHASE. -/
def countOf (s : State) : Option Word × Option Word × Phase := (s.ptr, s.rem, s.phase)

/-! ### Well-formedness: a term each check refuses -/

theorem test_descriptor_bad_opc : Descriptor.wellFormed 0x3 = false := by decide
theorem test_descriptor_zero : Descriptor.wellFormed 0x0 = false := by decide
theorem test_descriptor_bad_rsv0 : Descriptor.wellFormed 0x101 = false := by decide
theorem test_descriptor_ok : Descriptor.wellFormed 0x2 = true := by decide
theorem test_asm_seed_too_wide : Asm.wellFormed (.hash (2 ^ 64) 0 0) = false := by decide
theorem test_asm_offset_too_wide : Asm.wellFormed (.hash 0 (2 ^ 64) 0) = false := by decide
theorem test_asm_length_too_wide : Asm.wellFormed (.hash 0 0 (2 ^ 64)) = false := by decide
theorem test_asm_value_too_wide : Asm.wellFormed (.hashv (2 ^ 64)) = false := by decide
theorem test_asm_hashs_too_wide : Asm.wellFormed (.hashs (2 ^ 64)) = false := by decide
theorem test_asm_widest : Asm.wellFormed (.hash (2 ^ 64 - 1) (2 ^ 64 - 1) (2 ^ 64 - 1)) = true := by decide
theorem test_asm_text_too_long (text : List Byte) (h : text.length = 2 ^ 63) :
    Asm.wellFormed (.hasht text) = false := by
  simp [Asm.wellFormed, Config.maxViewLen, h]
theorem test_assemble_refuses_ill_formed : Asm.assemble 0 (.hashs (2 ^ 64)) = none := by decide
/-- An address above the first, a zero byte listed, and a cell outside the view are not canonical (R40). -/
theorem test_memory_wf :
    Memory.wf 4 [(1, 0x05), (0, 0x06)] = false ∧ Memory.wf 4 [(1, 0x00)] = false ∧
      Memory.wf 4 [(4, 0x05)] = false ∧ Memory.wf 4 [(0, 0x06), (3, 0x05)] = true := by decide

/-! ### Decoding: words written out from R61, R62, R66, R68 -/

/-- W3 = 0x25, W2 = 5, W1 = 7, OPC = 0x01 (program PG). -/
theorem test_decode_hash :
    decodeCommand 0x0000000000000025000000000000000500000000000000070000000000000001
      = .instr (.hash 7 5 0x25) := by decide
/-- W3 and W2 all ones are ignored (program PH, e). -/
theorem test_decode_hashv :
    decodeCommand 0xFFFFFFFFFFFFFFFFFFFFFFFFFFFFFFFF00000000000000000000000000000002 = .instr (.hashv 0) := by decide
theorem test_decode_accept : decodeMicro 0b0000 = .accept := by decide
theorem test_decode_check : decodeMicro 0b0001 = .check := by decide
theorem test_decode_linit : decodeMicro 0b0010 = .linit := by decide
theorem test_decode_blk : decodeMicro 0b0011 = .blk := by decide
theorem test_decode_fold : decodeMicro 0b0100 = .fold := by decide
theorem test_decode_mrg1 : decodeMicro 0b0101 = .mrg1 := by decide
theorem test_decode_mrg2 : decodeMicro 0b0110 = .mrg2 := by decide
theorem test_decode_mrg3 : decodeMicro 0b0111 = .mrg3 := by decide
theorem test_decode_mrg4 : decodeMicro 0b1000 = .mrg4 := by decide
theorem test_decode_sseed : decodeMicro 0b1001 = .sseed := by decide
theorem test_decode_addlen : decodeMicro 0b1010 = .addlen := by decide
theorem test_decode_t8 : decodeMicro 0b1011 = .t8 := by decide
theorem test_decode_t4 : decodeMicro 0b1100 = .t4 := by decide
theorem test_decode_t1 : decodeMicro 0b1101 = .t1 := by decide
theorem test_decode_aval : decodeMicro 0b1110 = .aval := by decide
theorem test_decode_ret : decodeMicro 0b1111 = .ret := by decide
/-- The three illegal descriptors of program PH. -/
theorem test_decode_illegal :
    decodeCommand 0x0 = .illegal (.opcode 0x00) ∧ decodeCommand 0x101 = .illegal (.reserved 1) ∧
      decodeCommand 0x0000000000000003000000000000000200000000000000010000000000000003 = .illegal (.opcode 0x03) := by
  decide
theorem test_decode_table_word :
    decodeTableWord 8 0xE = some .aval ∧ decodeTableWord 8 0x10 = none ∧
      decodeTableWord 256 0x1 = some (.hash 0 0 0) ∧ decodeTableWord 256 0x3 = none := by decide
/-- `HASH 0x0123456789ABCDEF, 0, 13` as R68 and program PB print it. -/
theorem test_assemble :
    Asm.assemble 0 (.hash 0x0123456789ABCDEF 0 13)
      = some 0x000000000000000D00000000000000000123456789ABCDEF0000000000000001 := by decide
/-- HASHS and HASHD know VIEW_LEN (R69; programs PB and PC). -/
theorem test_expand :
    Asm.expand 13 (.hashs 0x0123456789ABCDEF) = .hash 0x0123456789ABCDEF 0 13 ∧
      Asm.expand 45 .hashd = .hash 0 0 45 ∧ Asm.expand 3 (.hasht [0x61, 0x62, 0x63]) = .hash 0 0 3 := by decide
/-- A line with a hexadecimal and two decimal operands and a comment, and a comment line (R68). -/
theorem test_parse_line :
    parseLine ['H', 'A', 'S', 'H', ' ', '0', 'x', '1', 'F', ',', ' ', '5', ',', '3', '7', ' ', ';', ' ', 'a']
      = some (some (.hash 31 5 37)) ∧
    parseLine [';', ' ', 'H'] = some none ∧ parseLine ['H', 'A', 'S', 'H', 'V'] = none := by decide

/-! ### Reset (R33) -/

theorem test_reset :
    State.reset.phase = .idle ∧ State.reset.status = 0x00 ∧ State.reset.errcode = 0x00 ∧ State.reset.digest = none ∧
      lanesOf State.reset = [none, none, none, none] ∧ State.reset.h = none ∧ State.reset.cmd = none := by decide

/-! ### One step per instruction -/

/-- Program PG, step 1. -/
theorem test_hash :
    field (fun t => (t.seed, t.len, t.ptr, t.rem)) (exec (.hash 7 5 37) (viewOf [])) =
      some (some 7, some 37, some 5, some 37) ∧
    field (fun t => (t.val, t.imm, t.status, t.phase)) (exec (.hash 7 5 37) (viewOf [])) =
      some (none, some false, 0x01, .check) := by decide
/-- Program PD, part 1, step 1. -/
theorem test_hashv :
    field (fun t => (t.seed, t.len, t.ptr, t.rem)) (exec (.hashv 0x0123456789ABCDEF) (viewOf [])) =
      some (some 0, some 8, some 0, some 8) ∧
    field (fun t => (t.val, t.imm, t.status, t.phase)) (exec (.hashv 0x0123456789ABCDEF) (viewOf [])) =
      some (some 0x0123456789ABCDEF, some true, 0x01, .sseed) := by decide
/-- Program PG, step 1, through the slot. -/
theorem test_accept_hash :
    field (fun t => (t.seed, t.len, t.ptr, t.phase)) (exec .accept
      { viewOf [] with cmd := some 0x0000000000000025000000000000000500000000000000070000000000000001 }) =
      some (some 7, some 37, some 5, .check) := by decide
/-- Program PH, step 2: RSV0 is not zero. -/
theorem test_accept_illegal :
    field flagsOf (exec .accept { viewOf [] with cmd := some 0x101 }) = some (0x04, 0x02, [.err 0x02], .idle) := by decide
/-- V-B-8: the wrapped sum would pass. -/
theorem test_check_bounds :
    field flagsOf (exec .check { running (pat 16) 1 0xFFFFFFFFFFFFFFFF 1 with phase := .check }) =
      some (0x04, 0x01, [.err 0x01], .idle) := by decide
/-- The path threshold: length 31 and length 32 (programs PJ, PK, step 2). -/
theorem test_check_path :
    field State.phase (exec .check (running (pat 31) 31 0 31)) = some .sseed ∧
    field State.phase (exec .check (running (pat 32) 32 0 32)) = some .linit := by decide
/-- V-L-5. -/
theorem test_linit :
    field lanesOf (exec .linit { viewOf [] with seed := some 0x0123456789ABCDEF }) =
      some [some 0x620D6D56376C83C5, some 0xC3D5F3A4B180B93E, some 0x0123456789ABCDEF, some 0x62EBCBB603C00368] := by
  decide
/-- Program PG, step 4: unaligned words at 5, 13, 21, 29. -/
theorem test_blk :
    field lanesOf (exec .blk (withLanes 0x60EA27EEADC0B5DD 0xC2B2AE3D27D4EB56 7 0x61C8864E7A143580
      (running (pat 48) 37 5 37))) =
      some [some 0x9BF0973998151E87, some 0x6B0EA733776CE54F, some 0x1099959BA636DFB4, some 0xDFB7A595858EA67C] ∧
    field countOf (exec .blk (withLanes 0 0 0 0 (running (pat 48) 37 5 37))) = some (some 37, some 5, .fold) := by
  decide
/-- Program PF, step 4: another block is left. -/
theorem test_blk_again :
    field countOf (exec .blk (withLanes 0 0 0 0 (running (pat 64) 64 0 64))) = some (some 32, some 32, .blk) := by decide
/-- V-FO-5. -/
theorem test_fold :
    field State.h (exec .fold (withLanes 0xF4B53B57406B5E99 0xC3D34B511FC32561 0xCB26C007C8A1553F 0x9A44D001A7F91C07
      (viewOf []))) = some (some 0x7F173BACE7DBD3D9) := by decide
/-- Program PC, steps 6 to 9: each merge takes its own lane. -/
theorem test_merges :
    (let s := withLanes 0xF4B53B57406B5E99 0xC3D34B511FC32561 0xCB26C007C8A1553F 0x9A44D001A7F91C07 (viewOf [])
     field State.h (exec .mrg1 (withH 0x7F173BACE7DBD3D9 .mrg1 s)) = some (some 0xF4F010017EB0B31E) ∧
     field State.h (exec .mrg2 (withH 0xF4F010017EB0B31E .mrg2 s)) = some (some 0x3EBAF0888F893B86) ∧
     field State.h (exec .mrg3 (withH 0x3EBAF0888F893B86 .mrg3 s)) = some (some 0x570DD21AF61C37A7) ∧
     field State.h (exec .mrg4 (withH 0x570DD21AF61C37A7 .mrg4 s)) = some (some 0xC845DBC88C411C2D)) := by decide
/-- Program PC, step 9: the lanes are destroyed. -/
theorem test_mrg4_drops_lanes :
    field lanesOf (exec .mrg4 (withH 0 .mrg4 (withLanes 1 2 3 4 (viewOf [])))) = some [none, none, none, none] := by decide
/-- Program PB, step 3. -/
theorem test_sseed :
    field (fun t => (t.h, t.phase)) (exec .sseed { viewOf [] with seed := some 0x0123456789ABCDEF }) =
      some (some 0x28F83096A00235B4, .addlen) := by decide
/-- Program PG, step 10: the whole LEN is added, REM selects the tail. -/
theorem test_addlen :
    field (fun t => (t.h, t.phase)) (exec .addlen (withH 0xB983F8B49D9D6E4D .addlen (running [] 37 37 5))) =
      some (some 0xB983F8B49D9D6E72, .t4) := by decide
/-- Program PB, step 5. -/
theorem test_t8_view :
    field (fun t => (t.h, countOf t)) (exec .t8 (withH 0x28F83096A00235C1 .t8
      (running [0x48, 0x65, 0x6C, 0x6C, 0x6F, 0x2C, 0x20, 0x77, 0x6F, 0x72, 0x6C, 0x64, 0x21] 13 0 13))) =
      some (some 0x1635CD9CCB81B375, some 8, some 5, .t4) := by decide
/-- Program PD, part 1, step 4: VAL, no memory (the view is empty). -/
theorem test_t8_value :
    field (fun t => (t.h, countOf t)) (exec .t8 (withH 0x27D4EB2F165667CD .t8
      { running [] 8 0 8 with imm := some true, val := some 0x0123456789ABCDEF })) =
      some (some 0x3C8AB896C0AAEBA7, some 8, some 0, .aval) := by decide
/-- Program PC, step 12. -/
theorem test_t4 :
    field (fun t => (t.h, countOf t)) (exec .t4 (withH 0xEF1F7486253BDE8D .t4 (running (pat 45) 45 40 5))) =
      some (some 0xA246B855FD2A4741, some 44, some 1, .t1) := by decide
/-- V-T4-3: the 4-byte word FF FF FF FF is zero-extended. -/
theorem test_t4_zero_extends :
    field State.h (exec .t4 (withH 0 .t4 (running [0xFF, 0xFF, 0xFF, 0xFF] 4 0 4))) =
      some (some 0xC412DD1A87DA8451) := by decide
/-- Program PJ, step 9. -/
theorem test_t1 :
    field (fun t => (t.h, countOf t)) (exec .t1 (withH 0x3CDF4C549B51CEC9 .t1 (running (pat 31) 31 28 3))) =
      some (some 0xED20C5F4B05E24A4, some 29, some 2, .t1) := by decide
/-- V-T1-3: the byte FF is zero-extended. -/
theorem test_t1_zero_extends :
    field State.h (exec .t1 (withH 0 .t1 (running [0xFF] 1 0 1))) = some (some 0x6F974583107FD1D8) := by decide
/-- V-AV-6, and V-AV-5 (the shifts are logical). -/
theorem test_aval :
    field (fun t => (t.h, t.phase)) (exec .aval (withH 0x0123456789ABCDEF .aval (viewOf []))) =
      some (some 0xB84DA6F78DBF6DE2, .ret) ∧
    field State.h (exec .aval (withH 0x8000000000000000 .aval (viewOf []))) = some (some 0x21BCCFD08328A27E) := by decide
/-- Program PA, step 6. -/
theorem test_ret :
    field (fun t => (flagsOf t, t.digest, t.h)) (exec .ret (withH 0xEF46DB3751D8E999 .ret (running [] 0 0 0))) =
      some ((0x02, 0x00, [.ok 0xEF46DB3751D8E999], .idle), some 0xEF46DB3751D8E999, none) := by decide
/-- V-M-5 and V-U-4. -/
theorem test_mix_update :
    mix 0x60EA27EEADC0B5D6 0x0706050403020100 = 0xF4B53B57406B5E99 ∧
      update 0x0123456789ABCDEF 0xFEDCBA9876543210 = 0xB9F0D6953977F322 ∧
      tail8 0x0123456789ABCDEF 0xFEDCBA9876543210 = 0x1C861D5B0F222540 := by decide
/-- R32: a register that holds `⊥` is not read as a number. -/
theorem test_bottom_read : exec .fold (viewOf []) = .fault (.bottomRead .v1) := rfl
/-- Program PI, moves 3 and 4: a full slot cannot be replaced. -/
theorem test_present :
    (State.present 0x2 (viewOf [])).isSome = true ∧
      (State.present 0x2 { viewOf [] with cmd := some 0x2 }).isSome = false := by decide
/-- Program PI, move 12: reset keeps the responses. -/
theorem test_assert_reset :
    (State.assertReset { running (pat 4) 4 0 4 with resp := [.ok 1], h := some 9 }).resp = [.ok 1] ∧
      (State.assertReset { running (pat 4) 4 0 4 with h := some 9 }).h = none := by decide

/-! ### Witnesses: for every statement with hypotheses, values that meet them, each clause at its boundary -/

/-- `HASH 0, 0, 45` (program PC), `HASH 0, 0, 46` (one byte too long for 45), `HASHV 0x0123456789ABCDEF` (program PD). -/
def cHash : Descriptor := 0x000000000000002D000000000000000000000000000000000000000000000001
def cLong : Descriptor := 0x000000000000002E000000000000000000000000000000000000000000000001
def cValue : Descriptor := 0x000000000000000000000000000000000123456789ABCDEF0000000000000002

/-- The idle engine with a command in its slot. -/
def pending (bytes : List Byte) (c : Descriptor) : State := { viewOf bytes with cmd := some c }

/-- A state in which every register holds a value. -/
def full : State := withLanes 1 2 3 4 (withH 5 .idle { running (pat 32) 32 0 32 with val := some 6 })

/-- A `HASH` of 45 bytes in some of its phases. -/
def atCheck : State := { running (pat 45) 45 0 45 with phase := .check }
def atCheckLong : State := { running (pat 45) 46 0 46 with phase := .check }
def atLinit : State := { running (pat 45) 45 0 45 with phase := .linit }
def atBlk : State := withLanes 1 2 3 4 { running (pat 45) 45 0 45 with phase := .blk }
def atAddlen : State := withH 5 .addlen (running (pat 45) 45 32 13)
def atT8 : State := withH 5 .t8 (running (pat 45) 45 32 13)
def atRet : State := withH 5 .ret (running (pat 45) 45 45 0)
/-- An idle engine that has delivered a digest. -/
def delivered : State :=
  { pending (pat 45) cHash with done := true, digest := some 7, resp := [.ok 7], ptr := some 9 }

/-- Whether a meaning leads to a next state. -/
def completes (i : Instr) (s : State) : Bool := (field (fun _ => ()) (exec i s)).isSome

theorem inv_pending : Inv (pending (pat 45) cHash) :=
  ⟨by decide, by decide, by decide, by decide, by decide, by decide⟩
theorem inv_delivered : Inv delivered := ⟨by decide, by decide, by decide, by decide, by decide, by decide⟩
theorem inv_atCheck : Inv atCheck := ⟨by decide, by decide, by decide, by decide, by decide, by decide⟩
theorem inv_atCheckLong : Inv atCheckLong := ⟨by decide, by decide, by decide, by decide, by decide, by decide⟩
theorem inv_atLinit : Inv atLinit := ⟨by decide, by decide, by decide, by decide, by decide, by decide⟩
theorem inv_atBlk : Inv atBlk := ⟨by decide, by decide, by decide, by decide, by decide, by decide⟩
theorem inv_atAddlen : Inv atAddlen := ⟨by decide, by decide, by decide, by decide, by decide, by decide⟩
theorem inv_atT8 : Inv atT8 := ⟨by decide, by decide, by decide, by decide, by decide, by decide⟩
theorem inv_atRet : Inv atRet := ⟨by decide, by decide, by decide, by decide, by decide, by decide⟩

theorem witness_DecodeEncodeRoundTrip :
    Instr.wellFormed (.hash 1 2 3) = true ∧ decodeCommand cHash = .instr (.hash 0 0 45) ∧
      decodeCommand 0xFFFFFFFFFFFFFFFFFFFFFFFFFFFFFFFF00000000000000000000000000000002 = .instr (.hashv 0) := by
  decide

/-- RSV0 at 1 and at its top bit; the two opcodes; their neighbours 0x00 and 0x03. -/
theorem witness_DecodeFollowsFieldTests :
    (0x101#256).toNat / 2 ^ 8 % 2 ^ 56 ≠ 0 ∧ (0x8000000000000001#256).toNat / 2 ^ 8 % 2 ^ 56 ≠ 0 ∧
      (0x1#256).toNat % 2 ^ 64 = 0x01 ∧ (0x2#256).toNat % 2 ^ 64 = 0x02 ∧
      (0x0#256).toNat % 2 ^ 64 ≠ 0x01 ∧ (0x0#256).toNat % 2 ^ 64 ≠ 0x02 ∧
      (0x3#256).toNat % 2 ^ 64 ≠ 0x01 ∧ (0x3#256).toNat % 2 ^ 64 ≠ 0x02 := by decide

theorem witness_StepRunsSelectedInstruction :
    (pending [] cValue).phase = .idle ∧ (pending [] cValue).cmd = some cValue ∧
      decodeCommand cValue = .instr (.hashv 0x0123456789ABCDEF) ∧ (viewOf []).phase = .idle ∧
      (viewOf []).cmd = none := by decide

theorem witness_FetchWordRunsNext :
    0 < 16 ∧ 15 < 16 ∧ decodeTableWord 256 0x2 = some (.hashv 0) := by decide

theorem witness_HashLatchesOperands : (viewOf []).phase = .idle := rfl
theorem witness_HashvLatchesValue : (viewOf []).phase = .idle := rfl

theorem witness_AcceptTakesPendingCommand :
    (pending [] cHash).phase = .idle ∧ (pending [] cHash).cmd = some cHash ∧
      decodeCommand cHash = .instr (.hash 0 0 45) ∧ decodeCommand cValue = .instr (.hashv 0x0123456789ABCDEF) ∧
      decodeCommand 0x3 = .illegal (.opcode 0x03) := by decide

theorem witness_IllegalDescriptorRaises :
    (pending [] 0x3).phase = .idle ∧ (pending [] 0x3).cmd = some 0x3 ∧
      (0x3#256).toNat % 2 ^ 8 ≠ 0x01 ∧ (0x3#256).toNat % 2 ^ 8 ≠ 0x02 ∧ (0x0#256).toNat % 2 ^ 8 ≠ 0x01 ∧
      (0x0#256).toNat % 2 ^ 8 ≠ 0x02 ∧ (0x101#256).toNat / 2 ^ 8 % 2 ^ 56 ≠ 0 := by decide

theorem witness_PendingCommandIsHeld :
    { atRet with cmd := some cValue }.phase ≠ .idle ∧ completes .ret { atRet with cmd := some cValue } = true ∧
      completes .accept { atRet with cmd := some cValue } = true := by decide

/-- Bit 63 of either operand, a sum one above VIEW_LEN, a sum equal to it; lengths 31 and 32. -/
theorem witness_CheckTestsBoundsAndSelectsPath :
    (running (pat 32) 32 0 32).ptr = some 0 ∧ (running (pat 32) 32 0 32).len = some 32 ∧
      (0x8000000000000000#64).getLsbD 63 = true ∧ (1#64).toNat + (32#64).toNat > (running (pat 32) 32 0 32).viewLen ∧
      (0#64).getLsbD 63 = false ∧ (32#64).getLsbD 63 = false ∧
      (0#64).toNat + (32#64).toNat ≤ (running (pat 32) 32 0 32).viewLen ∧ (32#64).toNat ≥ 32 ∧ (31#64).toNat < 32 := by
  decide

theorem witness_LinitSeedsLanes : full.seed = some 0 := by decide

theorem witness_BlkMixesOneBlock :
    full.v1 = some 1 ∧ full.v2 = some 2 ∧ full.v3 = some 3 ∧ full.v4 = some 4 ∧ full.ptr = some 0 ∧
      full.rem = some 32 ∧ 32 ≤ (32#64).toNat ∧ (0#64).toNat + 32 ≤ full.viewLen := by decide

theorem witness_FoldAddsRotatedLanes :
    full.v1 = some 1 ∧ full.v2 = some 2 ∧ full.v3 = some 3 ∧ full.v4 = some 4 := by decide

theorem witness_MergesUpdateWithLanes :
    full.h = some 5 ∧ full.v1 = some 1 ∧ full.v2 = some 2 ∧ full.v3 = some 3 ∧ full.v4 = some 4 := by decide

theorem witness_SseedSetsScalar : full.seed = some 0 := by decide
theorem witness_AddlenAddsLength : full.h = some 5 ∧ full.len = some 32 ∧ full.rem = some 32 := by decide

/-- Eight bytes left, at the end of the view; the same with a value. -/
theorem witness_T8ConsumesWord :
    (let s := withH 5 .t8 (running (pat 8) 8 0 8)
     s.h = some 5 ∧ s.ptr = some 0 ∧ s.rem = some 8 ∧ 8 ≤ (8#64).toNat ∧ s.imm = some false ∧
       (0#64).toNat + 8 ≤ s.viewLen) ∧
    (let s := { withH 5 .t8 (running [] 8 0 8) with imm := some true, val := some 6 }
     s.h = some 5 ∧ s.ptr = some 0 ∧ s.rem = some 8 ∧ s.imm = some true ∧ s.val = some 6) := by decide

theorem witness_T4ConsumesWord :
    (let s := withH 5 .t4 (running (pat 4) 4 0 4)
     s.h = some 5 ∧ s.ptr = some 0 ∧ s.rem = some 4 ∧ 4 ≤ (4#64).toNat ∧ (4#64).toNat < 8 ∧
       (0#64).toNat + 4 ≤ s.viewLen) ∧
    (let s := withH 5 .t4 (running (pat 7) 7 0 7)
     s.h = some 5 ∧ s.ptr = some 0 ∧ s.rem = some 7 ∧ 4 ≤ (7#64).toNat ∧ (7#64).toNat < 8 ∧
       (0#64).toNat + 4 ≤ s.viewLen) := by decide

theorem witness_T1ConsumesByte :
    (let s := withH 5 .t1 (running (pat 1) 1 0 1)
     s.h = some 5 ∧ s.ptr = some 0 ∧ s.rem = some 1 ∧ 1 ≤ (1#64).toNat ∧ (1#64).toNat < 4 ∧
       (0#64).toNat + 1 ≤ s.viewLen) ∧
    (let s := withH 5 .t1 (running (pat 3) 3 0 3)
     s.h = some 5 ∧ s.ptr = some 0 ∧ s.rem = some 3 ∧ 1 ≤ (3#64).toNat ∧ (3#64).toNat < 4 ∧
       (0#64).toNat + 1 ≤ s.viewLen) := by decide

theorem witness_AvalAppliesFiveStages : full.h = some 5 := by decide
theorem witness_RetDeliversDigest : full.h = some 5 := by decide
theorem witness_RotationMovesEveryBit : 1 ≤ 1 ∧ 63 ≤ 63 ∧ 0 < 64 ∧ 63 < 64 := by decide
/-- Each width, ending at the last byte of the view. -/
theorem witness_MemReadIsLittleEndianSum :
    31 + 1 ≤ full.viewLen ∧ 28 + 4 ≤ full.viewLen ∧ 24 + 8 ≤ full.viewLen := by decide

theorem witness_DatapathFrame :
    ∀ i ∈ [Instr.linit, .blk, .fold, .mrg1, .mrg2, .mrg3, .mrg4, .sseed, .addlen, .t8, .t4, .t1, .aval],
      completes i full = true := by decide
theorem witness_AccumulatorFrame :
    ∀ i ∈ [Instr.linit, .blk, .fold, .mrg1, .mrg2, .mrg3, .mrg4, .sseed, .addlen, .t8, .t4, .t1, .aval],
      completes i full = true := by decide

/-- A legal and an illegal descriptor; CHECK with and without a fault. -/
theorem witness_ControlFrame :
    completes (.hash 1 2 3) full = true ∧ completes (.hashv 1) full = true ∧ completes .ret full = true ∧
      field (fun t => t.err) (exec .accept (pending [] 0x3)) = some true ∧
      field (fun t => t.busy) (exec .accept (pending [] cHash)) = some true ∧
      field (fun t => t.busy) (exec .check atCheck) = some true ∧
      field (fun t => t.err) (exec .check atCheckLong) = some true := by decide

theorem witness_NoInstructionWritesView : completes .blk full = true ∧ completes (.hashv 1) full = true := by decide

/-- Each register at its reader, and a read one byte past the view. -/
theorem witness_StopsOnlyOnBottomOrOutsideView :
    exec .fold (viewOf []) = .fault (.bottomRead .v1) ∧
      exec .t1 (withH 5 .t1 (running (pat 4) 5 4 1)) = .fault (.outsideView 4 1) := ⟨rfl, rfl⟩

theorem witness_OtherInstructionsReadNoMemory :
    Instr.aval ∉ [Instr.blk, .t8, .t4, .t1] ∧ { full with imm := some true }.imm = some true := by decide

/-- Two views that agree on the unconsumed bytes 32 to 44 and differ at byte 0. -/
theorem witness_StepReadsOnlyUnconsumedBytes :
    Inv atT8 ∧ atT8.ptr = some 32 ∧ atT8.rem = some 13 ∧
      (∀ a < 45, 32 ≤ a → (atT8.view.write 0 0xFF).byteAt a = atT8.view.byteAt a) ∧
      (atT8.view.write 0 0xFF).byteAt 0 ≠ atT8.view.byteAt 0 := ⟨inv_atT8, by decide, by decide, by decide, by decide⟩

/-- Lane 1 equal, lane 2 different; the same bytes. -/
theorem witness_LanesAreIndependent :
    completes .linit full = true ∧ completes .linit { full with v1 := some 9 } = true ∧
      completes .blk full = true ∧ completes .blk { full with v2 := some 9 } = true ∧
      full.ptr = some 0 ∧ full.v1 = { full with v2 := some 9 }.v1 := by decide

theorem witness_AnswerIndependentOfHistory :
    Inv (pending (pat 45) cHash) ∧ Inv delivered ∧ (pending (pat 45) cHash).phase = .idle ∧ delivered.phase = .idle ∧
      (pending (pat 45) cHash).cmd = some cHash ∧ delivered.cmd = some cHash ∧
      (pending (pat 45) cHash).view = delivered.view ∧ (pending (pat 45) cHash).viewLen = delivered.viewLen :=
  ⟨inv_pending, inv_delivered, rfl, rfl, rfl, rfl, rfl, rfl⟩

theorem witness_ResetIsSound :
    Memory.wf (2 ^ 63 - 1) [] = true ∧ 2 ^ 63 - 1 ≤ 2 ^ 63 - 1 ∧ Memory.wf 2 [(1, 0x05)] = true := by decide

theorem witness_StepKeepsInvariant : Inv atBlk ∧ ∃ t, step atBlk = .next t := ⟨inv_atBlk, _, rfl⟩

theorem witness_HostMovesKeepInvariant :
    Inv (viewOf [0x05]) ∧ (hostMove (.present cHash) (viewOf [0x05])).isSome = true ∧
      (hostMove .reset (viewOf [0x05])).isSome = true ∧ (hostMove (.writeView 0 0x00) (viewOf [0x05])).isSome = true ∧
      (hostMove (.placeView [0x00]) (viewOf [0x05])).isSome = true :=
  ⟨⟨by decide, by decide, by decide, by decide, by decide, by decide⟩, by decide, by decide, by decide, by decide⟩

theorem witness_ReachableStatesNeverStop : Reachable (pending [] cValue) :=
  .host (.present cValue) (viewOf []) _ (.reset [] 0 rfl (by decide)) rfl

theorem witness_ConsumedPlusLeftIsConstant :
    Inv atT8 ∧ (∃ t, step atT8 = .next t) ∧ atT8.phase ≠ .idle ∧ atT8.phase ≠ .check ∧ atT8.imm = some false ∧
      atT8.ptr = some 32 ∧ atT8.rem = some 13 :=
  ⟨inv_atT8, ⟨_, rfl⟩, by decide, by decide, by decide, by decide, by decide⟩

theorem witness_OneResponsePerCommand : Inv (pending (pat 45) cHash) ∧ ∃ t, step (pending (pat 45) cHash) = .next t :=
  ⟨inv_pending, _, rfl⟩

/-- RET emits `Resp(OK, d)`, CHECK emits `Resp(ERR, 0x01)`. -/
theorem witness_StatusDescribesEvent :
    Inv atRet ∧ Inv atCheckLong ∧ field State.resp (step atRet) = some [.ok 5] ∧ atRet.resp = [] ∧
      field State.resp (step atCheckLong) = some [.err 0x01] ∧ atCheckLong.resp = [] :=
  ⟨inv_atRet, inv_atCheckLong, by decide, by decide, by decide, by decide⟩

theorem witness_FaultsArePrecise :
    field State.resp (step atCheckLong) = some (atCheckLong.resp ++ [.err 0x01]) ∧
      field State.resp (step (pending [] 0x3)) = some ((pending [] 0x3).resp ++ [.err 0x02]) := by decide

theorem witness_TransitionTable :
    (Inv atCheck ∧ field State.phase (step atCheck) = some .linit) ∧
      (Inv atAddlen ∧ field State.phase (step atAddlen) = some .t8) :=
  ⟨⟨inv_atCheck, by decide⟩, inv_atAddlen, by decide⟩

theorem witness_BlockLoopFoldsEachLane :
    Inv atLinit ∧ atLinit.phase = .linit ∧ atLinit.seed = some 0 ∧ atLinit.len = some 45 ∧ atLinit.ptr = some 0 :=
  ⟨inv_atLinit, by decide, by decide, by decide, by decide⟩

theorem witness_TailConsumesInOrder :
    Inv atAddlen ∧ atAddlen.phase = .addlen ∧ atAddlen.imm = some false ∧ atAddlen.h = some 5 ∧
      atAddlen.len = some 45 ∧ atAddlen.ptr = some 32 ∧ atAddlen.rem = some 13 :=
  ⟨inv_atAddlen, by decide, by decide, by decide, by decide, by decide, by decide⟩

/-- OFFSET + LENGTH equal to VIEW_LEN. -/
theorem witness_HashComputesClosedForm :
    Inv (pending (pat 45) cHash) ∧ (pending (pat 45) cHash).phase = .idle ∧
      (pending (pat 45) cHash).cmd = some cHash ∧ decodeCommand cHash = .instr (.hash 0 0 45) ∧
      (0#64).toNat + (45#64).toNat ≤ (pending (pat 45) cHash).viewLen :=
  ⟨inv_pending, by decide, by decide, by decide, by decide⟩

theorem witness_HashvComputesShortcut :
    (pending [] cValue).phase = .idle ∧ (pending [] cValue).cmd = some cValue ∧
      decodeCommand cValue = .instr (.hashv 0x0123456789ABCDEF) := by decide

/-- Program PD: the value, and its bytes EF CD AB 89 67 45 23 01 in an 8-byte view. -/
theorem witness_HashvEqualsHashOfBytes :
    (let s := pending [] cValue
     let s' := pending [0xEF, 0xCD, 0xAB, 0x89, 0x67, 0x45, 0x23, 0x01]
        0x0000000000000008000000000000000000000000000000000000000000000001
     Inv s' ∧ (s.phase = .idle ∧ s'.phase = .idle ∧ s.cmd = some cValue ∧ s'.cmd.isSome = true) ∧
       decodeCommand cValue = .instr (.hashv 0x0123456789ABCDEF) ∧
       decodeCommand 0x0000000000000008000000000000000000000000000000000000000000000001 = .instr (.hash 0 0 8) ∧
       (0#64).toNat + 8 ≤ s'.viewLen ∧
       ∀ i < 8, s'.view.byteAt ((0#64).toNat + i) = (0x0123456789ABCDEF#64).extractLsb' (8 * i) 8) :=
  ⟨⟨by decide, by decide, by decide, by decide, by decide, by decide⟩, by decide, by decide, by decide, by decide,
    by decide⟩

/-- A sum one above VIEW_LEN; bit 63 of OFFSET (V-B-6) and of LENGTH (V-B-7). -/
theorem witness_OutOfBoundsHashFaults :
    (pending (pat 45) cLong).phase = .idle ∧ (pending (pat 45) cLong).cmd = some cLong ∧
      decodeCommand cLong = .instr (.hash 0 0 46) ∧ (0#64).toNat + (46#64).toNat > (pending (pat 45) cLong).viewLen ∧
      decodeCommand 0x0000000000000000800000000000000000000000000000000000000000000001 =
        .instr (.hash 0 0x8000000000000000 0) ∧
      decodeCommand 0x8000000000000000000000000000000000000000000000000000000000000001 =
        .instr (.hash 0 0 0x8000000000000000) ∧
      (0x8000000000000000#64).getLsbD 63 = true := by decide

theorem witness_EveryCommandIsAnswered :
    (Inv (pending (pat 45) cHash) ∧ (pending (pat 45) cHash).cmd.isSome = true) ∧ (Inv atRet ∧ atRet.busy = true) :=
  ⟨⟨inv_pending, rfl⟩, inv_atRet, rfl⟩

theorem witness_HostReadsStatusAndDigest :
    (viewOf []).done = false ∧ Inv delivered ∧ delivered.done = true := ⟨rfl, inv_delivered, rfl⟩

/-- The empty slot, the full one, a running and a waiting HASH; then the engine with nothing to do, a HASHV that runs and a
HASHV that waits, where both writes of the view succeed at the last address and fail just past it. -/
theorem witness_SlotAndViewHandshake :
    (viewOf []).cmd = none ∧ (pending [] cHash).cmd = some cHash ∧ (atT8.busy = true ∧ atT8.imm = some false) ∧
      decodeCommand cHash = .instr (.hash 0 0 45) ∧
    (∀ s ∈ [viewOf [0x05], pending [0x05] cValue, { withH 5 .t8 (running [0x05] 8 0 8) with imm := some true }],
      (s.busy = true → s.imm = some true) ∧ s.hashWaiting = false ∧ 0 < s.viewLen ∧ s.viewLen ≤ 1 ∧
        (s.writeView 0 0x06).isSome = true ∧ (s.writeView 1 0x06).isSome = false ∧
        (s.placeView [0x07]).isSome = true) := by decide

/-- A waiting HASHV is no HASH, which is the clause's own hypothesis. -/
theorem witness_SlotAndViewHandshake_value (c : Descriptor) (seed offset length : Word)
    (h : (pending [0x05] cValue).cmd = some c) : decodeCommand c ≠ .instr (.hash seed offset length) := by
  obtain rfl : cValue = c := by simpa [pending] using h
  rw [show decodeCommand cValue = .instr (.hashv 0x0123456789ABCDEF) by decide]
  simp

/-- A zero byte written (the cell is removed), a byte written, an image with a zero byte; two equal canonical views. -/
theorem witness_ViewMovesReadBack :
    (State.writeView 0 0x00 (viewOf [0x05])).isSome = true ∧ (State.writeView 0 0x06 (viewOf [0x05])).isSome = true ∧
      Memory.wf (viewOf [0x05]).viewLen (viewOf [0x05]).view = true ∧
      (State.placeView [0x00, 0x05] (viewOf [])).isSome = true ∧
      Memory.wf 2 (Memory.ofBytesFrom 0 [0x00, 0x05]) = true ∧ Memory.wf 2 [(1, 0x05)] = true ∧
      Memory.ofBytesFrom 0 [0x00, 0x05] = [(1, 0x05)] := by decide

theorem witness_FullViewCommandsPassBounds :
    Inv (viewOf (pat 45)) ∧ (viewOf (pat 45)).phase = .idle ∧ (viewOf (pat 45)).cmd = none ∧
      Asm.hashs (2 ^ 64 - 1) = .hashs (0xFFFFFFFFFFFFFFFF#64).toNat ∧ [0x61#8, 0x62#8, 0x63#8].length ≤ 2 ^ 63 - 1 :=
  ⟨⟨by decide, by decide, by decide, by decide, by decide, by decide⟩, rfl, rfl, by decide, by decide⟩

theorem witness_EnginesStepIndependently :
    (∃ y, (System.mk [atRet, atT8, viewOf []]).stepEngine 0 = some (.next y)) ∧
      (∃ y, (System.mk [atRet, atT8, viewOf []]).stepEngine 1 = some (.next y)) ∧ 0 ≠ 1 ∧ 2 ≠ 1 :=
  ⟨⟨_, rfl⟩, ⟨_, rfl⟩, by decide, by decide⟩

end Sys2Proof.Tests
end

