-- ==== Sys2Proof/Proofs/Scope.lean ====
section
/-! PROOFS. Reset, the host's handshake with the slot and the view, and what the view reads after the host's moves (R8,
R28, R31, R33, R40, R107, R115). -/

namespace Sys2Proof.Machine

/-! ### Reset -/

/-- R33 over a view that R8 admits: every register holds its idle value and no latch has to fit a phase. -/
theorem inv_resetWith {m : Memory} {n : Nat} (hm : Memory.wf n m = true) (hn : n ≤ Config.maxViewLen) :
    Inv (State.resetWith m n) where
  busy := by simp [BusyMatchesPhase, State.resetWith]
  flags := by simp [FlagsExclusive, State.resetWith]
  result := by simp [ResultMatchesFlags, State.resetWith]
  lifetime := ⟨⟨rfl, rfl, rfl, rfl⟩, rfl⟩
  latches := fun hbusy => absurd rfl hbusy
  view := ⟨hm, hn⟩

/-- Settles O39: the model's own reset state is the reset over the empty list of cells. -/
theorem resetIsSound : Obligations.ResetIsSound :=
  ⟨inv_resetWith reset_view_wf (Nat.le_refl _), fun _ _ hm hn => inv_resetWith hm hn⟩

/-! ### When the host may write the view -/

variable {s : State}

/-- Log entry 9: the view is writable exactly while no HASH runs and none waits. -/
theorem viewWritable_iff_no_hash :
    s.viewWritable = true ↔ (s.busy = true → s.imm = some true) ∧
      ∀ c seed offset length, s.cmd = some c → decodeCommand c ≠ .instr (.hash seed offset length) := by
  rw [viewWritable_iff, hashWaiting_false, hashRunning_false, and_comm]

/-- A HASH that runs or waits closes the view. -/
theorem viewWritable_eq_false_of_hash
    (h : (s.busy = true ∧ s.imm = some false) ∨
      ∃ c seed offset length, s.cmd = some c ∧ decodeCommand c = .instr (.hash seed offset length)) :
    s.viewWritable = false := by
  refine Bool.eq_false_iff.2 fun hw => ?_
  obtain ⟨hrun, hwait⟩ := viewWritable_iff_no_hash.1 hw
  obtain ⟨hbusy, himm⟩ | ⟨c, seed, offset, length, hcmd, hdec⟩ := h
  · simp [hrun hbusy] at himm
  · exact hwait c seed offset length hcmd hdec

theorem writeView_eq_none {a : Nat} {b : Byte} :
    s.writeView a b = none ↔ s.viewWritable = false ∨ s.viewLen ≤ a := by
  simp [State.writeView, Decidable.imp_iff_not_or]

theorem placeView_eq_none {bytes : List Byte} :
    s.placeView bytes = none ↔ s.viewWritable = false ∨ Config.maxViewLen < bytes.length := by
  simp [State.placeView, Decidable.imp_iff_not_or]

/-- Settles O57, from the lemma that says when each move succeeds and the one that says when it is refused. -/
theorem slotAndViewHandshake : Obligations.SlotAndViewHandshake := by
  refine ⟨fun s c hc => present_some.2 ⟨hc, rfl⟩, fun s c c' hc => ?_, fun s a b bytes hrun hwait => ?_,
    fun s a b bytes hhash => ?_⟩
  · simp [State.present, hc]
  · have hw : s.viewWritable = true := viewWritable_iff_no_hash.2 ⟨hrun, hwait⟩
    exact ⟨fun ha => writeView_some.2 ⟨hw, ha, rfl⟩, fun ha => writeView_eq_none.2 (.inr ha),
      fun hl => placeView_some.2 ⟨hw, hl, rfl⟩, fun hl => placeView_eq_none.2 (.inr hl)⟩
  · have hw : s.viewWritable = false := viewWritable_eq_false_of_hash hhash
    exact ⟨writeView_eq_none.2 (.inl hw), placeView_eq_none.2 (.inl hw)⟩

/-! ### What the view reads after the host's moves -/

/-- The parts of the canonical form of a view with a first cell. -/
theorem Memory.wfFrom_cons {lo hi a : Nat} {b : Byte} {m : Memory} :
    Memory.wfFrom lo hi ((a, b) :: m) = true ↔
      lo ≤ a ∧ a < hi ∧ b ≠ Config.unlistedByte ∧ Memory.wfFrom (a + 1) hi m = true := by
  simp [Memory.wfFrom, and_assoc]

/-- The first cell's address reads the first cell's byte. -/
@[simp] theorem Memory.byteAt_cons_same (a : Nat) (b : Byte) (m : Memory) : Memory.byteAt ((a, b) :: m) a = b := by
  simp [Memory.byteAt_cons]

/-- A placed image reads as its bytes. -/
theorem Memory.slice_ofBytesFrom_zero (bs : List Byte) :
    Memory.slice (Memory.ofBytesFrom 0 bs) 0 bs.length = bs := by
  refine List.ext_getElem (by simp [Memory.slice]) fun i _ hi => ?_
  have hread : Memory.byteAt (Memory.ofBytesFrom 0 bs) (0 + i) = bs[i] := by
    rw [Memory.byteAt_ofBytesFrom, List.getD_eq_getElem _ _ hi]
  simpa [Memory.slice] using hread

/-- A placed image is in canonical form. -/
theorem Memory.ofBytesFrom_zero_wf (bs : List Byte) : Memory.wf bs.length (Memory.ofBytesFrom 0 bs) = true := by
  simpa [Memory.wf] using Memory.ofBytesFrom_wfFrom 0 bs

/-- The first listed cell of one view is not below that of another that reads the same: there the other would read the
unlisted byte. -/
theorem Memory.head_le_of_byteAt_eq {lo lo' hi a a' : Nat} {b b' : Byte} {m m' : Memory}
    (h : Memory.wfFrom lo hi ((a, b) :: m) = true) (h' : Memory.wfFrom lo' hi ((a', b') :: m') = true)
    (heq : ∀ x, Memory.byteAt ((a, b) :: m) x = Memory.byteAt ((a', b') :: m') x) : a' ≤ a := by
  obtain ⟨-, -, hb, -⟩ := Memory.wfFrom_cons.1 h
  obtain ⟨-, ha', hb', hm'⟩ := Memory.wfFrom_cons.1 h'
  by_contra hlt
  have hbelow : Memory.byteAt ((a', b') :: m') a = Config.unlistedByte :=
    Memory.byteAt_below (Memory.wfFrom_cons.2 ⟨Nat.le_refl a', ha', hb', hm'⟩) (by omega)
  exact hb (by simpa [hbelow] using heq a)

/-- The canonical form is unique: views that read the same list the same cells. -/
theorem Memory.eq_of_byteAt_eq {lo lo' hi : Nat} {m m' : Memory} (h : Memory.wfFrom lo hi m = true)
    (h' : Memory.wfFrom lo' hi m' = true) (heq : ∀ x, Memory.byteAt m x = Memory.byteAt m' x) : m = m' := by
  induction m generalizing lo lo' m' with
  | nil =>
    cases m' with
    | nil => rfl
    | cons c' m' =>
      obtain ⟨a', b'⟩ := c'
      obtain ⟨-, -, hb', -⟩ := Memory.wfFrom_cons.1 h'
      exact absurd (by simpa using (heq a').symm) hb'
  | cons c m ih =>
    obtain ⟨a, b⟩ := c
    obtain ⟨-, -, hb, hm⟩ := Memory.wfFrom_cons.1 h
    cases m' with
    | nil => exact absurd (by simpa using heq a) hb
    | cons c' m' =>
      obtain ⟨a', b'⟩ := c'
      obtain ⟨-, -, -, hm'⟩ := Memory.wfFrom_cons.1 h'
      obtain rfl : a = a' := Nat.le_antisymm (Memory.head_le_of_byteAt_eq h' h fun x => (heq x).symm)
        (Memory.head_le_of_byteAt_eq h h' heq)
      obtain rfl : b = b' := by simpa using heq a
      have htail : ∀ x, Memory.byteAt m x = Memory.byteAt m' x := fun x => by
        by_cases hx : x ≤ a
        · rw [Memory.byteAt_below hm (by omega), Memory.byteAt_below hm' (by omega)]
        · simpa [Memory.byteAt_cons, show a ≠ x by omega] using heq x
      rw [ih hm hm' htail]

/-- Settles O58: each move's next state from the lemma about the move, then the rules of the view's bytes. -/
theorem viewMovesReadBack : Obligations.ViewMovesReadBack := by
  refine ⟨fun s t a b hwrite hwf => ?_, fun s t bytes hplace => ?_, fun n m m' hm hm' => Memory.eq_of_byteAt_eq hm hm'⟩
  · obtain ⟨-, ha, rfl⟩ := writeView_some.1 hwrite
    exact ⟨Memory.byteAt_write_same hwf a b, fun a' hne => Memory.byteAt_write_other s.view b hne,
      Memory.write_wf hwf ha b⟩
  · obtain ⟨-, -, rfl⟩ := placeView_some.1 hplace
    exact ⟨Memory.slice_ofBytesFrom_zero bytes, Memory.ofBytesFrom_zero_wf bytes⟩

end Sys2Proof.Machine
end

section
/-! PROOFS. What one step of the engine can change, and from it the state's invariant (R31), the safety of every
reachable state, the frames of the micro-operations, and what a step may read. -/

namespace Sys2Proof.Machine

/-! ### What a datapath micro-operation changes -/

/-- The thirteen micro-operations of the block accumulator, the finalizer and the avalanche. -/
abbrev datapath : List Instr :=
  [.linit, .blk, .fold, .mrg1, .mrg2, .mrg3, .mrg4, .sseed, .addlen, .t8, .t4, .t1, .aval]

/-- The micro-operations that write H alone and have one next phase, with that phase. -/
abbrev scalarRows : List (Phase × Phase) :=
  [(.fold, .mrg1), (.mrg1, .mrg2), (.mrg2, .mrg3), (.mrg3, .mrg4), (.sseed, .addlen), (.aval, .ret)]

/-- The tail's micro-operations with the number of bytes each consumes. -/
abbrev tailRows : List (Phase × Nat) := [(.t8, 8), (.t4, 4), (.t1, 1)]

theorem mem_scalarRows {p q : Phase} : (p, q) ∈ scalarRows ↔
    (p = .fold ∧ q = .mrg1) ∨ (p = .mrg1 ∧ q = .mrg2) ∨ (p = .mrg2 ∧ q = .mrg3) ∨ (p = .mrg3 ∧ q = .mrg4) ∨
      (p = .sseed ∧ q = .addlen) ∨ (p = .aval ∧ q = .ret) := by
  simp

theorem mem_tailRows {p : Phase} {n : Nat} :
    (p, n) ∈ tailRows ↔ (p = .t8 ∧ n = 8) ∨ (p = .t4 ∧ n = 4) ∨ (p = .t1 ∧ n = 1) := by
  simp

/-- The shapes of a datapath micro-operation's effect on `s`, the values written to lanes and H left open: the registers
it writes, what it consumes, and its next phase. -/
inductive DataEffect (s : State) : Phase → State → Prop where
  | linit (a b c d : Word) : DataEffect s .linit ((s.setLanes a b c d).goTo .blk)
  | blk (a b c d : Word) {ptr rem : Word} (hptr : s.ptr = some ptr) (hrem : s.rem = some rem) :
      DataEffect s .blk (((s.setLanes a b c d).consume ptr rem 32#64).goTo (nextBlock (rem - 32#64)))
  | scalar (x : Word) {p q : Phase} (hrow : (p, q) ∈ scalarRows) : DataEffect s p ((s.setH x).goTo q)
  | mrg4 (x : Word) : DataEffect s .mrg4 (((s.setH x).dropLanes).goTo .addlen)
  | addlen (x : Word) {rem : Word} (hrem : s.rem = some rem) : DataEffect s .addlen ((s.setH x).goTo (nextTail rem))
  | tail (x : Word) {p : Phase} {n : Nat} {ptr rem : Word} (hrow : (p, n) ∈ tailRows) (hptr : s.ptr = some ptr)
      (hrem : s.rem = some rem) :
      DataEffect s p (((s.setH x).consume ptr rem (BitVec.ofNat 64 n)).goTo (nextTail (rem - BitVec.ofNat 64 n)))

variable {s t : State}

/-- Every datapath micro-operation that completes has one of the shapes. -/
theorem dataEffect_of_exec {p : Phase} (hp : p.instr ∈ datapath) (h : exec p.instr s = .next t) :
    DataEffect s p t := by
  cases p with
  | idle | check | ret => simp [Phase.instr] at hp
  | linit => obtain ⟨_, -, rfl⟩ := execLinit_next.1 h; exact .linit ..
  | blk =>
    obtain ⟨_, _, _, _, ptr, rem, -, -, -, -, hptr, hrem, -, rfl⟩ := execBlk_next.1 h
    exact .blk _ _ _ _ hptr hrem
  | fold => obtain ⟨_, _, _, _, -, -, -, -, rfl⟩ := execFold_next.1 h; exact .scalar _ (by decide)
  | mrg1 | mrg2 | mrg3 => obtain ⟨_, _, -, -, rfl⟩ := mergeLane_next.1 h; exact .scalar _ (by decide)
  | mrg4 => obtain ⟨_, _, -, -, rfl⟩ := execMrg4_next.1 h; exact .mrg4 _
  | sseed => obtain ⟨_, -, rfl⟩ := execSseed_next.1 h; exact .scalar _ (by decide)
  | addlen => obtain ⟨_, _, _, -, -, hrem, rfl⟩ := execAddlen_next.1 h; exact .addlen _ hrem
  | t8 => obtain ⟨_, _, _, _, -, hptr, hrem, -, rfl⟩ := execT8_next.1 h; exact .tail _ (n := 8) (by decide) hptr hrem
  | t4 => obtain ⟨_, _, _, -, hptr, hrem, -, rfl⟩ := execT4_next.1 h; exact .tail _ (n := 4) (by decide) hptr hrem
  | t1 => obtain ⟨_, _, _, -, hptr, hrem, -, rfl⟩ := execT1_next.1 h; exact .tail _ (n := 1) (by decide) hptr hrem
  | aval => obtain ⟨_, -, rfl⟩ := execAval_next.1 h; exact .scalar _ (by decide)

/-- What no datapath micro-operation writes: the latches but PTR and REM, status and result, slot, responses, view. -/
structure KeepsControl (s t : State) : Prop where
  seed : t.seed = s.seed
  len : t.len = s.len
  val : t.val = s.val
  imm : t.imm = s.imm
  busy : t.busy = s.busy
  done : t.done = s.done
  err : t.err = s.err
  errcode : t.errcode = s.errcode
  digest : t.digest = s.digest
  cmd : t.cmd = s.cmd
  resp : t.resp = s.resp
  view : t.view = s.view
  viewLen : t.viewLen = s.viewLen

theorem DataEffect.keepsControl {p : Phase} (h : DataEffect s p t) : KeepsControl s t := by
  cases h <;> constructor <;> rfl

theorem nextBlock_cases (r : Word) :
    (32 ≤ r.toNat ∧ nextBlock r = .blk) ∨ (r.toNat < 32 ∧ nextBlock r = .fold) := by
  unfold nextBlock
  split
  · next h => exact .inl ⟨h, rfl⟩
  · next h => exact .inr ⟨by omega, rfl⟩

theorem pathOf_cases (len : Word) :
    (32 ≤ len.toNat ∧ pathOf len = .linit) ∨ (len.toNat < 32 ∧ pathOf len = .sseed) := by
  unfold pathOf
  split
  · next h => exact .inl ⟨h, rfl⟩
  · next h => exact .inr ⟨by omega, rfl⟩

/-! ### What a step can do -/

/-- Everything one step of the engine can do, by its phase (R100, R111). -/
inductive StepEffect (s : State) : State → Prop where
  /-- The engine waits (R100). -/
  | wait (hp : s.phase = .idle) (hc : s.cmd = none) : StepEffect s s
  | hash (hp : s.phase = .idle) {c : Descriptor} (hc : s.cmd = some c) {seed offset length : Word}
      (hd : decodeCommand c = .instr (.hash seed offset length)) : StepEffect s (s.acceptHash seed offset length)
  | hashv (hp : s.phase = .idle) {c : Descriptor} (hc : s.cmd = some c) {value : Word}
      (hd : decodeCommand c = .instr (.hashv value)) : StepEffect s (s.acceptHashv value)
  | illegal (hp : s.phase = .idle) {c : Descriptor} (hc : s.cmd = some c) {why : Illegal}
      (hd : decodeCommand c = .illegal why) : StepEffect s (s.beginAccept.raise .illegalCmd)
  | bounds (hp : s.phase = .check) {ptr len : Word} (hptr : s.ptr = some ptr) (hlen : s.len = some len)
      (hb : boundsViolated ptr len s.viewLen = true) : StepEffect s (s.raise .bounds)
  | path (hp : s.phase = .check) {ptr len : Word} (hptr : s.ptr = some ptr) (hlen : s.len = some len)
      (hb : boundsViolated ptr len s.viewLen = false) : StepEffect s (s.goTo (pathOf len))
  | data {t : State} (hp : s.phase.instr ∈ datapath) (h : DataEffect s s.phase t) : StepEffect s t
  | ret (hp : s.phase = .ret) {h : Word} (hh : s.h = some h) :
      StepEffect s ((((s.setDone h).emit (.ok h)).dropH).goTo .idle)

theorem Phase.instr_mem_datapath (p : Phase) : p.instr ∈ datapath ∨ p = .idle ∨ p = .check ∨ p = .ret := by
  cases p <;> decide

theorem stepEffect_of_step (h : step s = .next t) : StepEffect s t := by
  rw [step_eq] at h
  obtain hp | hp | hp | hp := Phase.instr_mem_datapath s.phase
  · exact .data hp (dataEffect_of_exec hp h)
  · rw [hp] at h
    obtain ⟨c, a, b, d, -, hc, hd, rfl⟩ | ⟨c, v, -, hc, hd, rfl⟩ | ⟨c, w, -, hc, hd, rfl⟩ | ⟨hc, rfl⟩ :=
      execAccept_next.1 h
    · exact .hash hp hc hd
    · exact .hashv hp hc hd
    · exact .illegal hp hc hd
    · exact .wait hp (hc hp)
  · rw [hp] at h
    obtain ⟨ptr, len, hptr, hlen, ⟨hb, rfl⟩ | ⟨hb, rfl⟩⟩ := execCheck_next.1 h
    · exact .bounds hp hptr hlen hb
    · exact .path hp hptr hlen hb
  · rw [hp] at h
    obtain ⟨_, hh, rfl⟩ := execRet_next.1 h
    exact .ret hp hh

/-! ### Where the next-phase choices lead -/

/-- The tail's choice is a phase of the tail, or AVAL: no lane is held there, and H is. -/
theorem nextTail_phase (r : Word) :
    nextTail r ≠ .idle ∧ Phase.lanesLive (nextTail r) = false ∧ Phase.hLive (nextTail r) = true := by
  obtain ⟨-, h⟩ | ⟨-, -, h⟩ | ⟨-, -, h⟩ | ⟨-, h⟩ := nextTail_cases r <;> rw [h] <;> decide

/-- After a block the lanes are held and H is not. -/
theorem nextBlock_phase (r : Word) :
    nextBlock r ≠ .idle ∧ Phase.lanesLive (nextBlock r) = true ∧ Phase.hLive (nextBlock r) = false := by
  obtain ⟨-, h⟩ | ⟨-, h⟩ := nextBlock_cases r <;> rw [h] <;> decide

/-- Both paths start with no accumulator held. -/
theorem pathOf_phase (len : Word) :
    pathOf len ≠ .idle ∧ Phase.lanesLive (pathOf len) = false ∧ Phase.hLive (pathOf len) = false := by
  obtain ⟨-, h⟩ | ⟨-, h⟩ := pathOf_cases len <;> rw [h] <;> decide

/-- A micro-operation that writes H alone keeps the lanes' lifetime and leads to a phase where H is held. -/
theorem scalarRows_phase {p q : Phase} (hrow : (p, q) ∈ scalarRows) :
    q ≠ .idle ∧ Phase.lanesLive q = Phase.lanesLive p ∧ Phase.hLive q = true := by
  have all : ∀ r ∈ scalarRows, r.2 ≠ .idle ∧ Phase.lanesLive r.2 = Phase.lanesLive r.1 ∧ Phase.hLive r.2 = true := by
    decide
  exact all _ hrow

theorem tailRows_phase {p : Phase} {n : Nat} (hrow : (p, n) ∈ tailRows) : Phase.lanesLive p = false := by
  have all : ∀ r ∈ tailRows, Phase.lanesLive r.1 = false := by decide
  exact all _ hrow

theorem ne_idle_of_mem_datapath {p : Phase} (hp : p.instr ∈ datapath) : p ≠ .idle := by
  rintro rfl
  simp [Phase.instr] at hp

/-- A datapath micro-operation never leads to IDLE. -/
theorem DataEffect.phase_ne_idle {p : Phase} (h : DataEffect s p t) : t.phase ≠ .idle := by
  cases h with
  | linit | mrg4 => simp
  | blk => exact (nextBlock_phase _).1
  | scalar _ hrow => exact (scalarRows_phase hrow).1
  | addlen | tail => exact (nextTail_phase _).1

/-! ### The accumulators' lifetime (R12, R13, R31 items 4 and 5) -/

/-- Outside the lanes' phases all lanes are empty. -/
theorem Inv.lanesEmpty (hs : Inv s) (hp : Phase.lanesLive s.phase = false) : LanesEmpty s := by
  simpa [hp] using hs.lifetime.1

theorem Inv.lanesLive (hs : Inv s) (hp : Phase.lanesLive s.phase = true) : LanesLive s := by
  simpa [hp] using hs.lifetime.1

/-- Outside H's phases H is empty. -/
theorem Inv.h_eq_none (hs : Inv s) (hp : Phase.hLive s.phase = false) : s.h = none := by
  simpa [hp] using hs.lifetime.2

theorem Inv.h_isSome (hs : Inv s) (hp : Phase.hLive s.phase = true) : s.h.isSome = true := by
  rw [hs.lifetime.2, hp]

/-- In a phase that holds neither, lanes and H are empty. -/
theorem Inv.accumulators_empty (hs : Inv s) {p : Phase} (hp : s.phase = p)
    (hp' : Phase.lanesLive p = false ∧ Phase.hLive p = false) : LanesEmpty s ∧ s.h = none :=
  ⟨hs.lanesEmpty (hp ▸ hp'.1), hs.h_eq_none (hp ▸ hp'.2)⟩

theorem accumulatorLifetime_live (hp : Phase.lanesLive t.phase = true) (hl : LanesLive t)
    (hh : t.h.isSome = Phase.hLive t.phase) : AccumulatorLifetime t := by
  simpa [AccumulatorLifetime, hp] using ⟨hl, hh⟩

theorem accumulatorLifetime_empty (hp : Phase.lanesLive t.phase = false) (hl : LanesEmpty t)
    (hh : t.h.isSome = Phase.hLive t.phase) : AccumulatorLifetime t := by
  simpa [AccumulatorLifetime, hp] using ⟨hl, hh⟩

/-- Lanes and H after a datapath micro-operation are held as its next phase asks. -/
theorem DataEffect.accumulatorLifetime (hs : Inv s) (h : DataEffect s s.phase t) : AccumulatorLifetime t := by
  generalize hp : s.phase = p at h
  cases h with
  | linit =>
    exact accumulatorLifetime_live rfl ⟨rfl, rfl, rfl, rfl⟩ (by simp [hs.h_eq_none (by rw [hp]; rfl), Phase.hLive])
  | blk =>
    obtain ⟨-, hlanes, hh⟩ := nextBlock_phase (_ - 32#64)
    exact accumulatorLifetime_live hlanes ⟨rfl, rfl, rfl, rfl⟩ (by simp [hs.h_eq_none (by rw [hp]; rfl), hh])
  | scalar x hrow =>
    obtain ⟨-, hlanes, hh⟩ := scalarRows_phase hrow
    have hl := hs.lifetime.1
    rw [hp, ← hlanes] at hl
    exact ⟨hl, hh.symm⟩
  | mrg4 => exact accumulatorLifetime_empty rfl ⟨rfl, rfl, rfl, rfl⟩ rfl
  | addlen =>
    obtain ⟨-, hlanes, hh⟩ := nextTail_phase _
    exact accumulatorLifetime_empty hlanes (hs.lanesEmpty (by rw [hp]; rfl)) hh.symm
  | tail x hrow =>
    obtain ⟨-, hlanes, hh⟩ := nextTail_phase _
    exact accumulatorLifetime_empty hlanes (hs.lanesEmpty (hp ▸ tailRows_phase hrow)) hh.symm

/-! ### The latches (R31 items 6 and 7) -/

/-- The phases of a `HASHV` with what is left of its eight bytes (R104, R113). -/
abbrev hashvRows : List (Phase × Word) := [(.sseed, 8), (.addlen, 8), (.t8, 8), (.aval, 0), (.ret, 0)]

theorem mem_hashvRows {p : Phase} {r : Word} : (p, r) ∈ hashvRows ↔
    (p = .sseed ∧ r = 8) ∨ (p = .addlen ∧ r = 8) ∨ (p = .t8 ∧ r = 8) ∨ (p = .aval ∧ r = 0) ∨ (p = .ret ∧ r = 0) := by
  simp

/-- The latches of a `HASH` in a phase they fit. -/
structure HashLatches (s : State) (seed len ptr rem : Word) : Prop where
  hseed : s.seed = some seed
  hlen : s.len = some len
  hptr : s.ptr = some ptr
  hrem : s.rem = some rem
  himm : s.imm = some false
  hval : s.val = none
  fits : remFits s.phase len.toNat rem.toNat = true
  le : rem.toNat ≤ len.toNat
  inside : s.phase = .check ∨ ptr.toNat + rem.toNat ≤ s.viewLen

/-- The latches of a `HASHV` in a phase they fit. -/
structure HashvLatches (s : State) (seed ptr rem value : Word) : Prop where
  hseed : s.seed = some seed
  hlen : s.len = some 8
  hptr : s.ptr = some ptr
  hrem : s.rem = some rem
  himm : s.imm = some true
  hval : s.val = some value
  row : (s.phase, rem) ∈ hashvRows
  seed_eq_zero : s.phase = .sseed → seed = 0

theorem HashLatches.latchesFit {seed len ptr rem : Word} (h : HashLatches s seed len ptr rem) :
    latchesFit s = true :=
  (latchesFit_iff s).2 ⟨seed, len, ptr, rem, false, h.hseed, h.hlen, h.hptr, h.hrem, h.himm, h.fits, h.le, by simp,
    fun _ => ⟨h.hval, h.inside⟩⟩

/-- What the invariant asks of a `HASHV` in a row's phase with the row's count. -/
theorem hashvRows_fits {p : Phase} {rem : Word} (hrow : (p, rem) ∈ hashvRows) :
    remFits p 8 rem.toNat = true ∧ rem.toNat ≤ 8 ∧ Phase.ofHashv p = true ∧ (rem = 8#64 ∨ rem = 0#64) ∧
      (p = .t8 → rem = 8#64) ∧ (p = .addlen → rem = 8#64) := by
  obtain ⟨rfl, rfl⟩ | ⟨rfl, rfl⟩ | ⟨rfl, rfl⟩ | ⟨rfl, rfl⟩ | ⟨rfl, rfl⟩ := mem_hashvRows.1 hrow <;> decide

theorem HashvLatches.latchesFit {seed ptr rem value : Word} (h : HashvLatches s seed ptr rem value) :
    latchesFit s = true := by
  obtain ⟨hfit, hle, hphase, hcount, ht8, hadd⟩ := hashvRows_fits h.row
  exact (latchesFit_iff s).2 ⟨seed, 8, ptr, rem, true, h.hseed, h.hlen, h.hptr, h.hrem, h.himm, hfit, hle,
    fun _ => ⟨by simp [h.hval], hphase, rfl, hcount, ht8, hadd, h.seed_eq_zero⟩, by simp⟩

/-- In a `HASHV` phase the condition on REM leaves one count. -/
theorem hashvRows_of_fits {p : Phase} {rem : Word} (hp : Phase.ofHashv p = true) (hfit : remFits p 8 rem.toNat = true)
    (ht8 : p = .t8 → rem = 8#64) (hadd : p = .addlen → rem = 8#64) : (p, rem) ∈ hashvRows := by
  cases p with
  | sseed =>
    have h8 : rem.toNat = 8 ∧ rem.toNat < 32 := by simpa [remFits] using hfit
    obtain rfl : rem = 8#64 := BitVec.eq_of_toNat_eq h8.1
    decide
  | addlen => rw [hadd rfl]; decide
  | t8 => rw [ht8 rfl]; decide
  | aval | ret =>
    have h0 : rem.toNat = 0 := by simpa [remFits, ← BitVec.toNat_eq] using hfit
    obtain rfl : rem = 0#64 := BitVec.eq_of_toNat_eq h0
    decide
  | _ => simp [Phase.ofHashv] at hp

/-- A running command's latches are those of a `HASH` or those of a `HASHV`. -/
theorem Inv.latches_cases (hs : Inv s) (hp : s.phase ≠ .idle) :
    (∃ seed len ptr rem, HashLatches s seed len ptr rem) ∨
      ∃ seed ptr rem value, HashvLatches s seed ptr rem value := by
  obtain ⟨seed, len, ptr, rem, imm, hseed, hlen, hptr, hrem, himm, hfit, hle, hv, hh⟩ :=
    (latchesFit_iff s).1 (hs.latches hp)
  cases imm with
  | false =>
    obtain ⟨hval, hin⟩ := hh rfl
    exact .inl ⟨seed, len, ptr, rem, hseed, hlen, hptr, hrem, himm, hval, hfit, hle, hin⟩
  | true =>
    obtain ⟨hval, hphase, rfl, -, ht8, hadd, hzero⟩ := hv rfl
    obtain ⟨value, hvalue⟩ := Option.isSome_iff_exists.1 hval
    exact .inr ⟨seed, ptr, rem, value, hseed, hlen, hptr, hrem, himm, hvalue,
      hashvRows_of_fits hphase hfit ht8 hadd, hzero⟩

/-- The tail's choice fits what is left of less than a block. -/
theorem remFits_nextTail {len : Nat} {r : Word} (hr : r.toNat < 32) : remFits (nextTail r) len r.toNat = true := by
  obtain ⟨h8, h⟩ | ⟨h4, h8, h⟩ | ⟨h1, h4, h⟩ | ⟨h0, h⟩ := nextTail_cases r <;> rw [h] <;> simp [remFits, *]

/-- The block loop's choice fits what is left. -/
theorem remFits_nextBlock {len : Nat} {r : Word} : remFits (nextBlock r) len r.toNat = true := by
  obtain ⟨hr, h⟩ | ⟨hr, h⟩ := nextBlock_cases r <;> simp [h, remFits, hr]

/-- A step that writes H alone leads to a phase the same count fits. -/
theorem remFits_scalarRows {p q : Phase} (hrow : (p, q) ∈ scalarRows) {len rem : Nat}
    (hfit : remFits p len rem = true) : remFits q len rem = true := by
  obtain ⟨rfl, rfl⟩ | ⟨rfl, rfl⟩ | ⟨rfl, rfl⟩ | ⟨rfl, rfl⟩ | ⟨rfl, rfl⟩ | ⟨rfl, rfl⟩ := mem_scalarRows.1 hrow
  case inr.inr.inr.inr.inl =>
    have hboth : rem = len ∧ rem < 32 := by simpa [remFits] using hfit
    simpa [remFits] using hboth.2
  all_goals exact hfit

/-- What a tail phase has left: enough for its own step and less than a block. -/
theorem remFits_tailRows {p : Phase} {n : Nat} (hrow : (p, n) ∈ tailRows) {len rem : Nat}
    (hfit : remFits p len rem = true) : n ≤ rem ∧ rem < 32 := by
  obtain ⟨rfl, rfl⟩ | ⟨rfl, rfl⟩ | ⟨rfl, rfl⟩ := mem_tailRows.1 hrow <;> simp [remFits] at hfit <;> omega

/-- A step that keeps PTR and REM, in a phase past CHECK, keeps the latches of a `HASH` if its next phase fits REM. -/
theorem HashLatches.of_keeps {seed len ptr rem : Word} (hl : HashLatches s seed len ptr rem) (hk : KeepsControl s t)
    (hptr : t.ptr = s.ptr) (hrem : t.rem = s.rem) (hin : ptr.toNat + rem.toNat ≤ s.viewLen)
    (hfit : remFits t.phase len.toNat rem.toNat = true) : HashLatches t seed len ptr rem where
  hseed := hk.seed.trans hl.hseed
  hlen := hk.len.trans hl.hlen
  hptr := hptr.trans hl.hptr
  hrem := hrem.trans hl.hrem
  himm := hk.imm.trans hl.himm
  hval := hk.val.trans hl.hval
  fits := hfit
  le := hl.le
  inside := .inr (hk.viewLen ▸ hin)

/-- A step that consumes `n` of the bytes left keeps the latches of a `HASH` if its next phase fits the new REM; PTR and
REM add up to the same. -/
theorem HashLatches.of_consumes {seed len ptr rem : Word} {n : Nat} (hl : HashLatches s seed len ptr rem)
    (hk : KeepsControl s t) (hptr : t.ptr = some (ptr + BitVec.ofNat 64 n))
    (hrem : t.rem = some (rem - BitVec.ofNat 64 n)) (hn : n ≤ rem.toNat) (hin : ptr.toNat + rem.toNat ≤ s.viewLen)
    (hview : s.viewLen < 2 ^ 63)
    (hfit : (rem - BitVec.ofNat 64 n).toNat = rem.toNat - n →
      remFits t.phase len.toNat (rem - BitVec.ofNat 64 n).toNat = true) :
    ∃ ptr' rem', HashLatches t seed len ptr' rem' ∧ ptr'.toNat + rem'.toNat = ptr.toNat + rem.toNat ∧
      rem'.toNat ≤ rem.toNat := by
  have hp : (ptr + BitVec.ofNat 64 n).toNat = ptr.toNat + n := toNat_add_of_lt (by omega)
  have hr : (rem - BitVec.ofNat 64 n).toNat = rem.toNat - n := toNat_sub_of_le hn
  have hle := hl.le
  refine ⟨_, _, ⟨hk.seed.trans hl.hseed, hk.len.trans hl.hlen, hptr, hrem, hk.imm.trans hl.himm,
    hk.val.trans hl.hval, hfit hr, by omega, .inr ?_⟩, by omega, by omega⟩
  rw [hp, hr, hk.viewLen]
  omega

/-- A datapath micro-operation of a `HASH` keeps its latches fit; PTR and REM add up to the same and REM does not
grow. -/
theorem DataEffect.hashLatches (hs : Inv s) {seed len ptr rem : Word} (hp : s.phase.instr ∈ datapath)
    (hl : HashLatches s seed len ptr rem) (h : DataEffect s s.phase t) :
    ∃ ptr' rem', HashLatches t seed len ptr' rem' ∧ ptr'.toNat + rem'.toNat = ptr.toNat + rem.toNat ∧
      rem'.toNat ≤ rem.toNat := by
  have hk := h.keepsControl
  have hin : ptr.toNat + rem.toNat ≤ s.viewLen := by
    refine hl.inside.resolve_left fun hc => ?_
    simp [hc, Phase.instr] at hp
  have hfit := hl.fits
  generalize hphase : s.phase = p at h hfit
  cases h with
  | linit =>
    have hblk : rem.toNat = len.toNat ∧ 32 ≤ rem.toNat := by simpa [remFits, BitVec.toNat_eq] using hfit
    exact ⟨ptr, rem, hl.of_keeps hk rfl rfl hin (by simpa [remFits] using hblk.2), rfl, Nat.le_refl _⟩
  | blk a b c d hptr hrem =>
    obtain rfl := Option.some.inj (hptr.symm.trans hl.hptr)
    obtain rfl := Option.some.inj (hrem.symm.trans hl.hrem)
    exact hl.of_consumes (n := 32) hk rfl rfl (by simpa [remFits] using hfit) hin hs.viewLen_lt fun _ => remFits_nextBlock
  | scalar x hrow =>
    exact ⟨ptr, rem, hl.of_keeps hk rfl rfl hin (remFits_scalarRows hrow hfit), rfl, Nat.le_refl _⟩
  | mrg4 => exact ⟨ptr, rem, hl.of_keeps hk rfl rfl hin hfit, rfl, Nat.le_refl _⟩
  | addlen x hrem =>
    obtain rfl := Option.some.inj (hrem.symm.trans hl.hrem)
    exact ⟨ptr, _, hl.of_keeps hk rfl rfl hin (remFits_nextTail (by simpa [remFits] using hfit)), rfl, Nat.le_refl _⟩
  | tail x hrow hptr hrem =>
    obtain rfl := Option.some.inj (hptr.symm.trans hl.hptr)
    obtain rfl := Option.some.inj (hrem.symm.trans hl.hrem)
    obtain ⟨hn, hlt⟩ := remFits_tailRows hrow hfit
    exact hl.of_consumes hk rfl rfl hn hin hs.viewLen_lt fun hr => remFits_nextTail (by omega)

/-- A step of a `HASHV` that writes H alone leads to a row with the same count. -/
theorem hashvRows_scalar {p q : Phase} {rem : Word} (hrow : (p, rem) ∈ hashvRows) (hsc : (p, q) ∈ scalarRows) :
    (q, rem) ∈ hashvRows ∧ q ≠ .sseed := by
  have all : ∀ r ∈ hashvRows, ∀ c ∈ scalarRows, r.1 = c.1 → (c.2, r.2) ∈ hashvRows ∧ c.2 ≠ .sseed := by decide
  exact all _ hrow _ hsc rfl

/-- At ADDLEN a `HASHV` has its eight bytes left. -/
theorem hashvRows_addlen {rem : Word} (hrow : (Phase.addlen, rem) ∈ hashvRows) : rem = 8 := by
  simpa using hrow

/-- The only tail step of a `HASHV` is T8, with eight bytes left. -/
theorem hashvRows_tail {p : Phase} {n : Nat} {rem : Word} (hrow : (p, rem) ∈ hashvRows) (hsc : (p, n) ∈ tailRows) :
    n = 8 ∧ rem = 8 := by
  have all : ∀ r ∈ hashvRows, ∀ c ∈ tailRows, r.1 = c.1 → c.2 = 8 ∧ r.2 = 8 := by decide
  exact all _ hrow _ hsc rfl

/-- A datapath micro-operation of a `HASHV` goes to the next of its rows (R113). -/
theorem DataEffect.hashvLatches {seed ptr rem value : Word} (hl : HashvLatches s seed ptr rem value)
    (h : DataEffect s s.phase t) : ∃ ptr' rem', HashvLatches t seed ptr' rem' value := by
  have hk := h.keepsControl
  have next {ptr' rem' : Word} (hptr : t.ptr = some ptr') (hrem : t.rem = some rem')
      (hrow : (t.phase, rem') ∈ hashvRows) (hp : t.phase ≠ .sseed) :
      ∃ ptr' rem', HashvLatches t seed ptr' rem' value :=
    ⟨ptr', rem', hk.seed.trans hl.hseed, hk.len.trans hl.hlen, hptr, hrem, hk.imm.trans hl.himm,
      hk.val.trans hl.hval, hrow, fun h => absurd h hp⟩
  have hrow := hl.row
  generalize s.phase = p at h hrow
  cases h with
  | linit | blk | mrg4 => simp at hrow
  | scalar x hsc =>
    obtain ⟨hq, hne⟩ := hashvRows_scalar hrow hsc
    exact next hl.hptr hl.hrem hq hne
  | addlen x hrem =>
    obtain rfl := Option.some.inj (hrem.symm.trans hl.hrem)
    obtain rfl := hashvRows_addlen hrow
    exact next hl.hptr hl.hrem (show (nextTail 8, 8) ∈ hashvRows by decide) (show nextTail 8 ≠ .sseed by decide)
  | tail x hsc hptr hrem =>
    obtain rfl := Option.some.inj (hrem.symm.trans hl.hrem)
    obtain ⟨rfl, rfl⟩ := hashvRows_tail hrow hsc
    exact next rfl rfl (show (nextTail (8 - 8), 8 - 8) ∈ hashvRows by decide)
      (show nextTail (8 - 8) ≠ .sseed by decide)

/-- A datapath micro-operation keeps the latches fit. -/
theorem DataEffect.latchesFit (hs : Inv s) (hp : s.phase.instr ∈ datapath) (h : DataEffect s s.phase t) :
    latchesFit t = true := by
  obtain ⟨_, _, _, _, hl⟩ | ⟨_, _, _, _, hl⟩ := hs.latches_cases (ne_idle_of_mem_datapath hp)
  · obtain ⟨_, _, hl', -⟩ := h.hashLatches hs hp hl
    exact hl'.latchesFit
  · obtain ⟨_, _, hl'⟩ := h.hashvLatches hl
    exact hl'.latchesFit

/-! ### The invariant (R31) -/

/-- A running step that writes no status, result, slot or view keeps the invariant if it keeps the accumulators' lifetime
and fits the latches. -/
theorem Inv.of_keepsControl (hs : Inv s) (hk : KeepsControl s t) (hp : s.phase ≠ .idle) (ht : t.phase ≠ .idle)
    (hlife : AccumulatorLifetime t) (hfit : Machine.latchesFit t = true) : Inv t where
  busy := by simp [BusyMatchesPhase, hk.busy, hs.busy.2 hp, ht]
  flags := by
    unfold FlagsExclusive
    rw [hk.busy, hk.done, hk.err]
    exact hs.flags
  result := by
    unfold ResultMatchesFlags
    rw [hk.digest, hk.done, hk.errcode, hk.err]
    exact hs.result
  lifetime := hlife
  latches := fun _ => hfit
  view := hs.view.of_eq hk.view hk.viewLen

/-- An idle state is sound when no accumulator is held and the result agrees with the flags; no latch has to fit. -/
theorem inv_of_idle (hp : t.phase = .idle) (hb : t.busy = false) (hf : ¬(t.done = true ∧ t.err = true))
    (hr : ResultMatchesFlags t) (hl : LanesEmpty t) (hh : t.h = none) (hv : ViewFits t) : Inv t where
  busy := by simp [BusyMatchesPhase, hp, hb]
  flags := ⟨hf, by simp [hb]⟩
  result := hr
  lifetime := accumulatorLifetime_empty (by rw [hp]; rfl) hl (by rw [hh, hp]; rfl)
  latches := fun h => absurd hp h
  view := hv

/-- Fault entry leads to a sound state where no accumulator was held (R174, R175). -/
theorem inv_raise (c : Cause) (hl : LanesEmpty s) (hh : s.h = none) (hv : ViewFits s) : Inv (s.raise c) := by
  have hcode : c.code ≠ 0#8 := by cases c <;> decide
  exact inv_of_idle rfl rfl (by simp) ⟨by simp, by simp [hcode]⟩ hl hh hv

/-- A running command that starts, with no accumulator held and the status clear. -/
theorem inv_of_accepted (hp : t.phase ≠ .idle) (hb : t.busy = true) (hd : t.done = false) (he : t.err = false)
    (hdig : t.digest = none) (hcode : t.errcode = 0#8) (hlife : AccumulatorLifetime t)
    (hfit : Machine.latchesFit t = true) (hv : ViewFits t) : Inv t where
  busy := by simp [BusyMatchesPhase, hp, hb]
  flags := by simp [FlagsExclusive, hd, he]
  result := by simp [ResultMatchesFlags, hd, he, hdig, hcode]
  lifetime := hlife
  latches := fun _ => hfit
  view := hv

theorem Inv.acceptHash (hs : Inv s) (hp : s.phase = .idle) (seed offset length : Word) :
    Inv (s.acceptHash seed offset length) := by
  have hfit : HashLatches (s.acceptHash seed offset length) seed length offset length :=
    ⟨rfl, rfl, rfl, rfl, rfl, rfl, by simp [remFits], Nat.le_refl _, .inl rfl⟩
  obtain ⟨hlanes, hh⟩ := hs.accumulators_empty hp (by decide)
  have hlife : AccumulatorLifetime (s.acceptHash seed offset length) :=
    accumulatorLifetime_empty rfl (by simpa [LanesEmpty] using hlanes) (by rw [State.acceptHash_h, hh]; rfl)
  exact inv_of_accepted (by simp) rfl rfl rfl rfl rfl hlife hfit.latchesFit (hs.view.of_eq (by simp) (by simp))

theorem Inv.acceptHashv (hs : Inv s) (hp : s.phase = .idle) (value : Word) : Inv (s.acceptHashv value) := by
  have hfit : HashvLatches (s.acceptHashv value) 0 0 8 value :=
    ⟨rfl, rfl, rfl, rfl, rfl, rfl, show (Phase.sseed, 8) ∈ hashvRows by decide, fun _ => rfl⟩
  obtain ⟨hlanes, hh⟩ := hs.accumulators_empty hp (by decide)
  have hlife : AccumulatorLifetime (s.acceptHashv value) :=
    accumulatorLifetime_empty rfl (by simpa [LanesEmpty] using hlanes) (by rw [State.acceptHashv_h, hh]; rfl)
  exact inv_of_accepted (by simp) rfl rfl rfl rfl rfl hlife hfit.latchesFit (hs.view.of_eq (by simp) (by simp))

theorem boundsViolated_eq_false {ptr len : Word} {n : Nat} (h : boundsViolated ptr len n = false) :
    ptr.toNat + len.toNat ≤ n := by
  have hsum : ¬n < ptr.toNat + len.toNat := fun hlt => by simp [boundsViolated, hlt] at h
  omega

theorem remFits_pathOf (len : Word) : remFits (pathOf len) len.toNat len.toNat = true := by
  obtain ⟨h, hp⟩ | ⟨h, hp⟩ := pathOf_cases len <;> rw [hp] <;> simp [remFits, h]

/-- A `HASH` that passes CHECK lies inside the view (R108). -/
theorem Inv.path (hs : Inv s) (hp : s.phase = .check) {ptr len : Word} (hptr : s.ptr = some ptr)
    (hlen : s.len = some len) (hb : boundsViolated ptr len s.viewLen = false) : Inv (s.goTo (pathOf len)) := by
  have hne : s.phase ≠ .idle := by simp [hp]
  have hk : KeepsControl s (s.goTo (pathOf len)) := by constructor <;> rfl
  obtain ⟨hpath, hlanes, hh⟩ := pathOf_phase len
  obtain ⟨_, len', ptr', rem, hl⟩ | ⟨_, _, _, _, hl⟩ := hs.latches_cases hne
  · obtain rfl := Option.some.inj (hptr.symm.trans hl.hptr)
    obtain rfl := Option.some.inj (hlen.symm.trans hl.hlen)
    have hrem : rem.toNat = len.toNat := by simpa [hp, remFits] using hl.fits
    have hin := boundsViolated_eq_false hb
    have hfit := hl.of_keeps hk rfl rfl (by omega) (by rw [hrem]; exact remFits_pathOf len)
    refine hs.of_keepsControl hk hne hpath ?_ hfit.latchesFit
    obtain ⟨hempty, hnone⟩ := hs.accumulators_empty hp (by decide)
    exact accumulatorLifetime_empty hlanes hempty (by simp [hnone, hh])
  · simpa [hp] using mem_hashvRows.1 hl.row

/-- RET leads to a sound idle state (R168). -/
theorem Inv.ret (hs : Inv s) (hp : s.phase = .ret) (d : Word) :
    Inv ((((s.setDone d).emit (.ok d)).dropH).goTo .idle) := by
  have herr : s.err = false := (hs.flags.2 (hs.busy.2 (by simp [hp]))).2
  exact inv_of_idle rfl rfl (by simp [herr]) ⟨by simp, hs.result.2⟩ (hs.lanesEmpty (by rw [hp]; rfl)) rfl hs.view

/-- Settles O40, by what a step can do. -/
theorem stepKeepsInvariant : Obligations.StepKeepsInvariant := by
  intro s t hs h
  cases stepEffect_of_step h with
  | wait => exact hs
  | hash hp => exact hs.acceptHash hp ..
  | hashv hp => exact hs.acceptHashv hp _
  | illegal hp =>
    obtain ⟨hlanes, hh⟩ := hs.accumulators_empty hp (by decide)
    exact inv_raise (s := s.beginAccept) _ hlanes hh hs.view
  | bounds hp =>
    obtain ⟨hlanes, hh⟩ := hs.accumulators_empty hp (by decide)
    exact inv_raise _ hlanes hh hs.view
  | path hp hptr hlen hb => exact hs.path hp hptr hlen hb
  | data hp h =>
    exact hs.of_keepsControl h.keepsControl (ne_idle_of_mem_datapath hp) h.phase_ne_idle (h.accumulatorLifetime hs)
      (h.latchesFit hs hp)
  | ret hp => exact hs.ret hp _

/-! ### The host's moves (R115) -/

/-- The invariant does not look at the slot or at the responses. -/
theorem Inv.of_slot_resp (hs : Inv s) (c : Option Descriptor) (r : List Response) :
    Inv { s with cmd := c, resp := r } :=
  ⟨hs.busy, hs.flags, hs.result, hs.lifetime, hs.latches, hs.view⟩

/-- A running command reads no byte of a view the host may write, so its latches fit any view (log entry 9). -/
theorem Inv.of_view (hs : Inv s) (hw : s.viewWritable = true) {m : Memory} {n : Nat} (hm : Memory.wf n m = true)
    (hn : n ≤ Config.maxViewLen) : Inv { s with view := m, viewLen := n } where
  busy := hs.busy
  flags := hs.flags
  result := hs.result
  lifetime := hs.lifetime
  latches := fun hp => by
    have himm := hashRunning_false.1 (viewWritable_iff.1 hw).2 (hs.busy.2 hp)
    obtain ⟨_, _, _, _, hl⟩ | ⟨seed, ptr, rem, value, hl⟩ := hs.latches_cases hp
    · simp [hl.himm] at himm
    · have hl' : HashvLatches { s with view := m, viewLen := n } seed ptr rem value :=
        ⟨hl.hseed, hl.hlen, hl.hptr, hl.hrem, hl.himm, hl.hval, hl.row, hl.seed_eq_zero⟩
      exact hl'.latchesFit
  view := ⟨hm, hn⟩

/-- Settles O41, by what each move does to a sound state. -/
theorem hostMovesKeepInvariant : Obligations.HostMovesKeepInvariant := by
  intro m s t hs h
  cases m with
  | present c =>
    obtain ⟨-, rfl⟩ := present_some.1 h
    exact hs.of_slot_resp (some c) s.resp
  | reset =>
    obtain rfl : s.assertReset = t := Option.some.inj h
    exact (inv_resetWith hs.view.1 hs.view.2).of_slot_resp none s.resp
  | writeView a b =>
    obtain ⟨hw, ha, rfl⟩ := writeView_some.1 h
    exact hs.of_view hw (Memory.write_wf hs.view.1 ha b) hs.view.2
  | placeView bytes =>
    obtain ⟨hw, hl, rfl⟩ := placeView_some.1 h
    exact hs.of_view hw (Memory.ofBytesFrom_zero_wf bytes) hl

/-- Every reachable state is sound: reset is, and steps and host moves keep it (R31). -/
theorem inv_of_reachable (h : Reachable s) : Inv s := by
  induction h with
  | reset m n hm hn => exact inv_resetWith hm hn
  | engine s t _ e ih => exact stepKeepsInvariant s t ih e
  | host m s t _ e ih => exact hostMovesKeepInvariant m s t ih e

/-! ### No sound state stops (R32, R48) -/

/-- The bytes an instruction reads at PTR: none but in BLK and the tail, and none in the T8 of a `HASHV` (R43). -/
def bytesRead (s : State) : Instr → Nat
  | .blk => 32
  | .t8 => if s.imm = some true then 0 else 8
  | .t4 => 4
  | .t1 => 1
  | _ => 0

/-- In a running phase REM fits the phase. -/
theorem Inv.remFits (hs : Inv s) (hp : s.phase ≠ .idle) {rem : Word} (hrem : s.rem = some rem) :
    ∃ len, Machine.remFits s.phase len rem.toNat = true := by
  obtain ⟨_, len, _, rem', _, -, -, -, hrem', -, hfit, -⟩ := (latchesFit_iff s).1 (hs.latches hp)
  obtain rfl := Option.some.inj (hrem.symm.trans hrem')
  exact ⟨_, hfit⟩

/-- In a sound state a step reads no more bytes than are left. -/
theorem Inv.bytesRead_le (hs : Inv s) {rem : Word} (hrem : s.rem = some rem) :
    bytesRead s s.phase.instr ≤ rem.toNat := by
  by_cases hp : s.phase = .idle
  · simp [hp, Phase.instr, bytesRead]
  · obtain ⟨len, hfit⟩ := hs.remFits hp hrem
    cases hphase : s.phase with
    | blk => simpa [hphase, Machine.remFits, Phase.instr, bytesRead] using hfit
    | t8 =>
      have hle : (if s.imm = some true then 0 else 8) ≤ 8 := by split <;> omega
      have hfit8 : 8 ≤ rem.toNat ∧ rem.toNat < 32 := by simpa [hphase, Machine.remFits] using hfit
      exact hle.trans hfit8.1
    | t4 =>
      have hfit4 : 4 ≤ rem.toNat ∧ rem.toNat < 8 := by simpa [hphase, Machine.remFits] using hfit
      exact hfit4.1
    | t1 =>
      have hfit1 : 1 ≤ rem.toNat ∧ rem.toNat < 4 := by simpa [hphase, Machine.remFits] using hfit
      exact hfit1.1
    | _ => exact Nat.zero_le _

/-- Lanes hold values in their phases. -/
theorem Inv.lane_values (hs : Inv s) (hp : Phase.lanesLive s.phase = true) :
    ∃ v1 v2 v3 v4, s.v1 = some v1 ∧ s.v2 = some v2 ∧ s.v3 = some v3 ∧ s.v4 = some v4 := by
  obtain ⟨h1, h2, h3, h4⟩ := hs.lanesLive hp
  obtain ⟨v1, h1⟩ := Option.isSome_iff_exists.1 h1
  obtain ⟨v2, h2⟩ := Option.isSome_iff_exists.1 h2
  obtain ⟨v3, h3⟩ := Option.isSome_iff_exists.1 h3
  obtain ⟨v4, h4⟩ := Option.isSome_iff_exists.1 h4
  exact ⟨v1, v2, v3, v4, h1, h2, h3, h4⟩

/-- H holds a value in its phases. -/
theorem Inv.h_value (hs : Inv s) (hp : Phase.hLive s.phase = true) : ∃ h, s.h = some h :=
  Option.isSome_iff_exists.1 (hs.h_isSome hp)

/-- The latches hold values while a command runs. -/
theorem Inv.latch_values (hs : Inv s) (hp : s.phase ≠ .idle) :
    ∃ seed len ptr rem, s.seed = some seed ∧ s.len = some len ∧ s.ptr = some ptr ∧ s.rem = some rem := by
  obtain ⟨seed, len, ptr, rem, _, hseed, hlen, hptr, hrem, -⟩ := (latchesFit_iff s).1 (hs.latches hp)
  exact ⟨seed, len, ptr, rem, hseed, hlen, hptr, hrem⟩

/-- What a datapath step reads lies inside the view (R48). -/
theorem Inv.read_inside (hs : Inv s) (hp : s.phase.instr ∈ datapath) (himm : s.imm = some false) {ptr : Word}
    (hptr : s.ptr = some ptr) : ptr.toNat + bytesRead s s.phase.instr ≤ s.viewLen := by
  obtain ⟨_, _, ptr', rem, hl⟩ | ⟨_, _, _, _, hl⟩ := hs.latches_cases (ne_idle_of_mem_datapath hp)
  · obtain rfl := Option.some.inj (hptr.symm.trans hl.hptr)
    have hle := hs.bytesRead_le hl.hrem
    have hin : ptr.toNat + rem.toNat ≤ s.viewLen := hl.inside.resolve_left fun hc => by simp [hc, Phase.instr] at hp
    omega
  · simp [hl.himm] at himm

theorem execAccept_total (s : State) : ∃ t, execAccept s = .next t := by
  unfold execAccept
  split
  · split <;> exact ⟨_, rfl⟩
  · exact ⟨_, rfl⟩

theorem execCheck_total {ptr len : Word} (hptr : s.ptr = some ptr) (hlen : s.len = some len) :
    ∃ t, execCheck s = .next t := by
  cases hb : boundsViolated ptr len s.viewLen with
  | false => exact ⟨_, execCheck_next.2 ⟨ptr, len, hptr, hlen, .inr ⟨hb, rfl⟩⟩⟩
  | true => exact ⟨_, execCheck_next.2 ⟨ptr, len, hptr, hlen, .inl ⟨hb, rfl⟩⟩⟩

/-- Outside a `HASHV`'s phases a running command is a `HASH`. -/
theorem Inv.imm_eq_false (hs : Inv s) (hp : s.phase ≠ .idle) (hv : Phase.ofHashv s.phase = false) :
    s.imm = some false := by
  obtain ⟨_, _, _, _, hl⟩ | ⟨_, _, _, _, hl⟩ := hs.latches_cases hp
  · exact hl.himm
  · obtain ⟨-, -, hphase, -⟩ := hashvRows_fits hl.row
    simp [hv] at hphase

/-- The word of T8 is VAL in a `HASHV`, and eight bytes of the view in a `HASH`. -/
theorem Inv.tail_word (hs : Inv s) (hp : s.phase = .t8) {ptr : Word} (hptr : s.ptr = some ptr) :
    ∃ w, (s.imm = some true ∧ s.val = some w) ∨
      (s.imm = some false ∧ ptr.toNat + 8 ≤ s.viewLen ∧ w = leWord s.view.byteAt ptr.toNat 8) := by
  obtain ⟨_, _, _, _, hl⟩ | ⟨_, _, _, value, hl⟩ := hs.latches_cases (by simp [hp])
  · have hin := hs.read_inside (by rw [hp]; decide) hl.himm hptr
    exact ⟨_, .inr ⟨hl.himm, by simpa [hp, Phase.instr, bytesRead, hl.himm] using hin, rfl⟩⟩
  · exact ⟨value, .inl ⟨hl.himm, hl.hval⟩⟩

/-- The micro-operation of a sound state's phase completes: the registers it reads hold values and the bytes it reads lie
inside the view. -/
theorem Inv.exec_total (hs : Inv s) : ∃ t, exec s.phase.instr s = .next t := by
  by_cases hidle : s.phase = .idle
  · rw [hidle]
    exact execAccept_total s
  obtain ⟨seed, len, ptr, rem, hseed, hlen, hptr, hrem⟩ := hs.latch_values hidle
  have hlanes := hs.lane_values
  have hacc := hs.h_value
  have himm := hs.imm_eq_false hidle
  have hin := fun hd him => hs.read_inside hd him hptr
  cases hp : s.phase <;> rw [hp] at hlanes hacc himm hin
  case idle => exact absurd hp hidle
  case check => exact execCheck_total hptr hlen
  case linit => exact ⟨_, execLinit_next.2 ⟨seed, hseed, rfl⟩⟩
  case blk =>
    obtain ⟨v1, v2, v3, v4, h1, h2, h3, h4⟩ := hlanes rfl
    exact ⟨_, execBlk_next.2 ⟨v1, v2, v3, v4, ptr, rem, h1, h2, h3, h4, hptr, hrem, hin (by decide) (himm rfl), rfl⟩⟩
  case fold =>
    obtain ⟨v1, v2, v3, v4, h1, h2, h3, h4⟩ := hlanes rfl
    exact ⟨_, execFold_next.2 ⟨v1, v2, v3, v4, h1, h2, h3, h4, rfl⟩⟩
  case sseed => exact ⟨_, execSseed_next.2 ⟨seed, hseed, rfl⟩⟩
  all_goals obtain ⟨h, hh⟩ := hacc rfl
  case addlen => exact ⟨_, execAddlen_next.2 ⟨h, len, rem, hh, hlen, hrem, rfl⟩⟩
  case t8 =>
    obtain ⟨w, hw⟩ := hs.tail_word hp hptr
    exact ⟨_, execT8_next.2 ⟨h, ptr, rem, w, hh, hptr, hrem, hw, rfl⟩⟩
  case t4 => exact ⟨_, execT4_next.2 ⟨h, ptr, rem, hh, hptr, hrem, hin (by decide) (himm rfl), rfl⟩⟩
  case t1 => exact ⟨_, execT1_next.2 ⟨h, ptr, rem, hh, hptr, hrem, hin (by decide) (himm rfl), rfl⟩⟩
  case aval => exact ⟨_, execAval_next.2 ⟨h, hh, rfl⟩⟩
  case ret => exact ⟨_, execRet_next.2 ⟨h, hh, rfl⟩⟩
  all_goals obtain ⟨v1, v2, v3, v4, h1, h2, h3, h4⟩ := hlanes rfl
  case mrg1 => exact ⟨_, mergeLane_next.2 ⟨h, v1, hh, h1, rfl⟩⟩
  case mrg2 => exact ⟨_, mergeLane_next.2 ⟨h, v2, hh, h2, rfl⟩⟩
  case mrg3 => exact ⟨_, mergeLane_next.2 ⟨h, v3, hh, h3, rfl⟩⟩
  case mrg4 => exact ⟨_, execMrg4_next.2 ⟨h, v4, hh, h4, rfl⟩⟩

theorem Inv.step_total (hs : Inv s) : ∃ t, step s = .next t := by
  rw [step_eq]
  exact hs.exec_total

/-- Settles O42: a reachable state is sound, and no sound state stops. -/
theorem reachableStatesNeverStop : Obligations.ReachableStatesNeverStop := by
  intro s h
  have hs := inv_of_reachable h
  obtain ⟨t, ht⟩ := hs.step_total
  exact ⟨t, ht, .engine s t h ht, stepKeepsInvariant s t hs ht⟩

/-! ### Where an instruction may stop (R32, R48) -/

/-- An outcome of `i` in `s` that is no stop, or one of the two stops where the model allows it. -/
def LawfulStop (i : Instr) (s : State) : Out → Prop
  | .next _ => True
  | .fault (.bottomRead r) => s.isBottom r = true
  | .fault (.outsideView a n) => s.viewLen < a + n ∧ (i = .blk ∨ i = .t8 ∨ i = .t4 ∨ i = .t1)
  | .refused _ => False

@[simp] theorem lawfulStop_next {i : Instr} : LawfulStop i s (.next t) := trivial

/-- A needed register stops lawfully if it is the one named and the continuation does. -/
theorem lawfulStop_need {α : Type} {i : Instr} {r : Reg} {v : Option α} {k : α → Out} :
    LawfulStop i s (need r v k) ↔ (v = none → s.isBottom r = true) ∧ ∀ x, v = some x → LawfulStop i s (k x) := by
  cases v <;> simp [LawfulStop]

/-- A read of the view stops lawfully in the instructions that read it. -/
theorem lawfulStop_withView {i : Instr} (hi : i = .blk ∨ i = .t8 ∨ i = .t4 ∨ i = .t1) {a n : Nat} {k : Word → Out} :
    LawfulStop i s (withView s a n k) ↔
      (a + n ≤ s.viewLen → LawfulStop i s (k (leWord s.view.byteAt a n))) := by
  unfold withView
  split
  · next h => simp [h]
  · next h => simpa [LawfulStop, h] using ⟨Nat.lt_of_not_le h, hi⟩

/-- The two sources of T8's word stop lawfully. -/
theorem lawfulStop_withTailWord {p : Word} {k : Word → Out} (hk : ∀ w, LawfulStop .t8 s (k w)) :
    LawfulStop .t8 s (withTailWord s p k) := by
  refine lawfulStop_need.2 ⟨fun h => by simp [State.isBottom, h], fun b _ => ?_⟩
  cases b with
  | false => exact (lawfulStop_withView (by simp)).2 fun _ => hk _
  | true => exact lawfulStop_need.2 ⟨fun h => by simp [State.isBottom, h], fun w _ => hk w⟩

theorem lawfulStop_mergeLane {i : Instr} {r : Reg} {lane : Option Word} {p : Phase}
    (hr : lane = none → s.isBottom r = true) : LawfulStop i s (mergeLane r lane p s) :=
  lawfulStop_need.2 ⟨by simp [State.isBottom], fun _ _ => lawfulStop_need.2 ⟨hr, fun _ _ => trivial⟩⟩

/-- No instruction stops but lawfully. -/
theorem lawfulStop_exec (i : Instr) (s : State) : LawfulStop i s (exec i s) := by
  cases i with
  | hash a b c =>
    rw [show exec (.hash a b c) s = execHash a b c s from rfl, execHash]
    split <;> exact lawfulStop_next
  | hashv v =>
    rw [show exec (.hashv v) s = execHashv v s from rfl, execHashv]
    split <;> exact lawfulStop_next
  | accept =>
    obtain ⟨t, ht⟩ := execAccept_total s
    simp [exec, ht]
  | check =>
    refine lawfulStop_need.2 ⟨by simp [State.isBottom], fun _ _ =>
      lawfulStop_need.2 ⟨by simp [State.isBottom], fun _ _ => ?_⟩⟩
    split <;> exact lawfulStop_next
  | linit => simp [exec, execLinit, lawfulStop_need, State.isBottom]
  | blk => simp [exec, execBlk, lawfulStop_need, lawfulStop_withView, State.isBottom]
  | fold => simp [exec, execFold, lawfulStop_need, State.isBottom]
  | mrg1 | mrg2 | mrg3 => exact lawfulStop_mergeLane (by simp [State.isBottom])
  | mrg4 => simp [exec, execMrg4, lawfulStop_need, State.isBottom]
  | sseed => simp [exec, execSseed, lawfulStop_need, State.isBottom]
  | addlen => simp [exec, execAddlen, lawfulStop_need, State.isBottom]
  | t8 => simp [exec, execT8, lawfulStop_need, lawfulStop_withTailWord, State.isBottom]
  | t4 => simp [exec, execT4, lawfulStop_need, lawfulStop_withView, State.isBottom]
  | t1 => simp [exec, execT1, lawfulStop_need, lawfulStop_withView, State.isBottom]
  | aval => simp [exec, execAval, lawfulStop_need, State.isBottom]
  | ret => simp [exec, execRet, lawfulStop_need, State.isBottom]

/-- Settles O34: every outcome is a next state or a lawful stop. -/
theorem stopsOnlyOnBottomOrOutsideView : Obligations.StopsOnlyOnBottomOrOutsideView := by
  intro i s
  have h := lawfulStop_exec i s
  exact ⟨fun r e => by rwa [e] at h, fun a n e => by rwa [e] at h, fun r e => by rwa [e] at h⟩

/-! ### Frames of the instructions (R11, R13, R17, R18, R28, R101) -/

theorem exists_phase_of_mem_datapath {i : Instr} (hi : i ∈ datapath) : ∃ p : Phase, p.instr = i := by
  have hmap : i ∈ [Phase.linit, .blk, .fold, .mrg1, .mrg2, .mrg3, .mrg4, .sseed, .addlen, .t8, .t4, .t1, .aval].map
      Phase.instr := hi
  obtain ⟨p, -, hp⟩ := List.mem_map.1 hmap
  exact ⟨p, hp⟩

/-- Settles O31, by the shapes of a datapath micro-operation's effect. -/
theorem accumulatorFrame : Obligations.AccumulatorFrame := by
  intro i s t hi h
  obtain ⟨p, rfl⟩ := exists_phase_of_mem_datapath hi
  cases dataEffect_of_exec hi h with
  | linit => exact ⟨fun hn => absurd (by decide) hn, fun _ => ⟨rfl, rfl⟩, fun _ => rfl⟩
  | blk => exact ⟨fun hn => absurd (by decide) hn, fun hn => absurd (by decide) hn, fun _ => rfl⟩
  | scalar x hrow =>
    refine ⟨fun _ => ⟨rfl, rfl, rfl, rfl⟩, fun _ => ⟨rfl, rfl⟩, fun hlb => ?_⟩
    obtain ⟨rfl, -⟩ | ⟨rfl, -⟩ | ⟨rfl, -⟩ | ⟨rfl, -⟩ | ⟨rfl, -⟩ | ⟨rfl, -⟩ := mem_scalarRows.1 hrow <;>
      simp [Phase.instr] at hlb
  | mrg4 => exact ⟨fun hn => absurd (by decide) hn, fun _ => ⟨rfl, rfl⟩, by simp [Phase.instr]⟩
  | addlen => exact ⟨fun _ => ⟨rfl, rfl, rfl, rfl⟩, fun _ => ⟨rfl, rfl⟩, by simp [Phase.instr]⟩
  | tail x hrow =>
    have hp : p.instr ∈ [Instr.blk, .t8, .t4, .t1] ∧ ¬(p.instr = .linit ∨ p.instr = .blk) := by
      obtain ⟨rfl, -⟩ | ⟨rfl, -⟩ | ⟨rfl, -⟩ := mem_tailRows.1 hrow <;> decide
    exact ⟨fun _ => ⟨rfl, rfl, rfl, rfl⟩, fun hn => absurd hp.1 hn, fun hlb => absurd hlb hp.2⟩

/-- Settles O10: outside IDLE the accepting instructions change nothing, and no other writes the slot. -/
theorem pendingCommandIsHeld : Obligations.PendingCommandIsHeld := by
  have held (s : State) (seed offset length value : Word) (hp : s.phase ≠ .idle) :
      exec (.hash seed offset length) s = .next s ∧ exec (.hashv value) s = .next s ∧ exec .accept s = .next s :=
    ⟨execHash_next.2 (.inr ⟨hp, rfl⟩), execHashv_next.2 (.inr ⟨hp, rfl⟩),
      execAccept_next.2 (.inr (.inr (.inr ⟨fun h => absurd h hp, rfl⟩)))⟩
  refine ⟨fun i s t hp h => ?_, held⟩
  by_cases hd : i ∈ datapath
  · obtain ⟨p, rfl⟩ := exists_phase_of_mem_datapath hd
    exact (dataEffect_of_exec hd h).keepsControl.cmd
  cases i with
  | hash a b c => rw [next_eq.1 ((held s a b c 0 hp).1.symm.trans h)]
  | hashv v => rw [next_eq.1 ((held s 0 0 0 v hp).2.1.symm.trans h)]
  | accept => rw [next_eq.1 ((held s 0 0 0 0 hp).2.2.symm.trans h)]
  | check => obtain ⟨_, _, -, -, ⟨-, rfl⟩ | ⟨-, rfl⟩⟩ := execCheck_next.1 h <;> rfl
  | ret => obtain ⟨_, -, rfl⟩ := execRet_next.1 h; rfl
  | _ => exact absurd (by decide) hd

/-! ### Lanes are independent (R11, R134) -/

/-- Equal words mixed into equal lanes give equal lanes. -/
theorem mix_congr {v v' : Word} {f g : Nat → Byte} {a c : Nat} (hv : some v = some v')
    (hb : ∀ j < 8, f (a + j) = g (c + j)) : some (mix v (leWord f a 8)) = some (mix v' (leWord g c 8)) := by
  rw [Option.some.inj hv, leWord_congr hb]

/-- Settles O37: each lane after LINIT and BLK is written from its own operands. -/
theorem lanesAreIndependent : Obligations.LanesAreIndependent := by
  refine ⟨fun s s' t t' h h' hseed => ?_, fun s s' t t' p p' h h' hp hp' => ?_⟩
  · obtain ⟨seed, hs, rfl⟩ := execLinit_next.1 h
    obtain ⟨seed', hs', rfl⟩ := execLinit_next.1 h'
    obtain rfl : seed = seed' := Option.some.inj (hs.symm.trans (hseed.trans hs'))
    exact ⟨rfl, rfl, rfl, rfl⟩
  · obtain ⟨v1, v2, v3, v4, q, _, h1, h2, h3, h4, hq, -, -, rfl⟩ := execBlk_next.1 h
    obtain ⟨w1, w2, w3, w4, q', _, k1, k2, k3, k4, hq', -, -, rfl⟩ := execBlk_next.1 h'
    obtain rfl := Option.some.inj (hp.symm.trans hq)
    obtain rfl := Option.some.inj (hp'.symm.trans hq')
    rw [h1, h2, h3, h4, k1, k2, k3, k4]
    exact ⟨mix_congr, mix_congr, mix_congr, mix_congr⟩

/-! ### Bytes left, responses and status along a step (R27, R29, R31) -/

/-- Settles O43: RET keeps PTR and REM, and a datapath micro-operation of a `HASH` keeps their sum. -/
theorem consumedPlusLeftIsConstant : Obligations.ConsumedPlusLeftIsConstant := by
  intro s t ptr rem hs h hidle hcheck himm hptr hrem
  cases stepEffect_of_step h with
  | wait hp | hash hp | hashv hp | illegal hp => exact absurd hp hidle
  | bounds hp | path hp => exact absurd hp hcheck
  | ret => exact ⟨rfl, ptr, rem, hptr, hrem, rfl, Nat.le_refl _⟩
  | data hp h =>
    obtain ⟨seed, len, ptr', rem', hl⟩ | ⟨_, _, _, _, hl⟩ := hs.latches_cases hidle
    · obtain rfl := Option.some.inj (hptr.symm.trans hl.hptr)
      obtain rfl := Option.some.inj (hrem.symm.trans hl.hrem)
      obtain ⟨ptr', rem', hl', hsum, hle⟩ := h.hashLatches hs hp hl
      exact ⟨h.keepsControl.len, ptr', rem', hl'.hptr, hl'.hrem, hsum, hle⟩
    · simp [hl.himm] at himm

/-- BUSY in the phases, of a sound state. -/
theorem Inv.busy_eq (hs : Inv s) : s.busy = decide (s.phase ≠ .idle) := by
  rw [Bool.eq_iff_iff, decide_eq_true_iff]
  exact hs.busy

/-- Settles O44: a response is emitted exactly at a step that ends a command, and BUSY rises where one is taken. -/
theorem oneResponsePerCommand : Obligations.OneResponsePerCommand := by
  intro s t hs h
  have hb := hs.busy_eq
  cases stepEffect_of_step h with
  | wait hp hc => simp [hc]
  | hash hp hc => simp [State.consumedCount, hb, hp, hc]
  | hashv hp hc => simp [State.consumedCount, hb, hp, hc]
  | illegal hp hc => simp [State.consumedCount, hb, hp, hc]
  | bounds hp => simp [State.consumedCount, hb, hp]
  | path hp => simp [State.consumedCount, hp]
  | data hp h =>
    have hk := h.keepsControl
    simp [State.consumedCount, hk.resp, hk.busy, ne_idle_of_mem_datapath hp]
  | ret hp => simp [State.consumedCount, hb, hp]

/-- R29: if the state after a step has one more event, STATUS, ERRCODE and DIGEST describe it. -/
def DescribesEvent (resp : List Response) (t : State) : Prop :=
  (∀ d : Word, t.resp = resp ++ [Response.ok d] →
    t.status = 0x02 ∧ t.errcode = 0x00 ∧ t.digest = some d ∧ t.readDigest = some d) ∧
  (∀ c : BitVec 8, t.resp = resp ++ [Response.err c] →
    t.status = 0x04 ∧ t.errcode = c ∧ t.digest = none ∧ t.readDigest = none)

/-- A step that emits nothing has no event to describe. -/
theorem describesEvent_of_quiet {resp : List Response} (h : t.resp = resp) : DescribesEvent resp t :=
  ⟨fun d hd => by simp [h] at hd, fun c hc => by simp [h] at hc⟩

/-- Fault entry sets the registers with its event (R174). -/
theorem describesEvent_raise (s : State) (cause : Cause) : DescribesEvent s.resp (s.raise cause) := by
  refine ⟨fun d hd => by simp at hd, fun c hc => ?_⟩
  obtain rfl : cause.code = c := by simpa using hc
  exact ⟨by simp [State.status], rfl, rfl, rfl⟩

/-- RET sets the registers with its event; ERR is 0 while a command runs, and with it ERRCODE (R31 items 2 and 3). -/
theorem describesEvent_ret (hs : Inv s) (hp : s.phase = .ret) (h : Word) :
    DescribesEvent s.resp ((((s.setDone h).emit (.ok h)).dropH).goTo .idle) := by
  have herr : s.err = false := (hs.flags.2 (hs.busy.2 (by simp [hp]))).2
  have hcode : s.errcode = 0#8 := by simpa [herr] using hs.result.2
  refine ⟨fun d hd => ?_, fun c hc => by simp at hc⟩
  obtain rfl : h = d := by simpa using hd
  exact ⟨by simp [State.status, herr], hcode, rfl, rfl⟩

/-- Settles O45: the emitting steps are RET and fault entry, and each sets the registers with its event. -/
theorem statusDescribesEvent : Obligations.StatusDescribesEvent := by
  intro s t hs h
  change DescribesEvent s.resp t
  cases stepEffect_of_step h with
  | wait | path => exact describesEvent_of_quiet rfl
  | hash | hashv => exact describesEvent_of_quiet (by simp)
  | illegal => exact describesEvent_raise s.beginAccept .illegalCmd
  | bounds => exact describesEvent_raise s .bounds
  | data _ h => exact describesEvent_of_quiet h.keepsControl.resp
  | ret hp => exact describesEvent_ret hs hp _

/-! ### The registers after MRG1 to MRG4, RET and reset; the host's reads -/

/-- Settles O15: a merge is `mergeLane`, and MRG4 also drops the lanes. -/
theorem mergesUpdateWithLanes : Obligations.MergesUpdateWithLanes := fun _ h v hh =>
  ⟨fun hv => mergeLane_next.2 ⟨h, v, hh, hv, rfl⟩, fun hv => mergeLane_next.2 ⟨h, v, hh, hv, rfl⟩,
    fun hv => mergeLane_next.2 ⟨h, v, hh, hv, rfl⟩, fun hv => execMrg4_next.2 ⟨h, v, hh, hv, rfl⟩⟩

/-- Settles O22. -/
theorem retDeliversDigest : Obligations.RetDeliversDigest := fun _ h hh => execRet_next.2 ⟨h, hh, rfl⟩

/-- Settles O55. -/
theorem resetValues : Obligations.ResetValues := fun _ =>
  ⟨rfl, by simp [State.status, State.assertReset, State.resetWith]⟩

/-- STATUS is its three flags (R22). -/
theorem status_eq (s : State) :
    s.status.getLsbD 0 = s.busy ∧ s.status.getLsbD 1 = s.done ∧ s.status.getLsbD 2 = s.err ∧ s.status.toNat < 8 := by
  unfold State.status
  cases s.busy <;> cases s.done <;> cases s.err <;> decide

/-- Settles O56: in a sound state DONE and a digest go together (R31 item 3). -/
theorem hostReadsStatusAndDigest : Obligations.HostReadsStatusAndDigest := by
  refine fun s => ⟨status_eq s, fun hd => by simp [State.readDigest, hd], fun hs hd => ?_⟩
  obtain ⟨d, hdig⟩ := Option.isSome_iff_exists.1 (hs.result.1.2 hd)
  exact ⟨d, by simp [State.readDigest, hd, hdig], hdig⟩

/-! ### What a step does not look at: earlier responses and bytes it does not read (R30, R43, R48, R50) -/

/-- The state with earlier responses in front of its own, over another view. -/
def State.reframe (r : List Response) (m : Memory) (s : State) : State := { s with resp := r ++ s.resp, view := m }

/-- An outcome with its next state, if any, changed. -/
def mapNext (f : State → State) : Out → Out
  | .next t => .next (f t)
  | .fault f => .fault f
  | .refused r => .refused r

@[simp] theorem mapNext_next (f : State → State) (t : State) : mapNext f (.next t) = .next (f t) := rfl

section Reframe

variable {r : List Response} {m : Memory}

theorem reframe_raise (c : Cause) : (s.reframe r m).raise c = (s.raise c).reframe r m := by
  simp [State.reframe, State.raise, State.setFault, State.emit, State.goTo]

theorem reframe_setDone_emit (h : Word) :
    ((s.reframe r m).setDone h).emit (.ok h) = ((s.setDone h).emit (.ok h)).reframe r m := by
  simp [State.reframe, State.setDone, State.emit]

/-- A needed register commutes with a change of the next state if the continuation does. -/
theorem need_mapNext {α : Type} {f : State → State} {g : Reg} {v : Option α} {k k' : α → Out}
    (hk : ∀ x, v = some x → k' x = mapNext f (k x)) : need g v k' = mapNext f (need g v k) := by
  cases v with
  | none => rfl
  | some x => exact hk x rfl

/-- So does a read of bytes on which the two views agree. -/
theorem withView_mapNext {f : State → State} {a n : Nat} {k k' : Word → Out}
    (hb : ∀ j < n, m.byteAt (a + j) = s.view.byteAt (a + j)) (hk : ∀ w, k' w = mapNext f (k w)) :
    withView (s.reframe r m) a n k' = mapNext f (withView s a n k) := by
  unfold withView
  rw [show (s.reframe r m).viewLen = s.viewLen from rfl, show (s.reframe r m).view = m from rfl, leWord_congr hb]
  split
  · exact hk _
  · rfl

/-- And the word of T8, if the views agree where a `HASH` reads it. -/
theorem withTailWord_mapNext {f : State → State} {p : Word} {k k' : Word → Out}
    (hb : s.imm ≠ some true → ∀ j < 8, m.byteAt (p.toNat + j) = s.view.byteAt (p.toNat + j))
    (hk : ∀ w, k' w = mapNext f (k w)) : withTailWord (s.reframe r m) p k' = mapNext f (withTailWord s p k) :=
  need_mapNext fun b himm => by
    cases b with
    | false => exact withView_mapNext (hb fun h => Bool.noConfusion (Option.some.inj (himm.symm.trans h))) hk
    | true => exact need_mapNext fun w _ => hk w

theorem mergeLane_reframe {g : Reg} {lane : Option Word} {p : Phase} :
    mergeLane g lane p (s.reframe r m) = mapNext (State.reframe r m) (mergeLane g lane p s) :=
  need_mapNext fun _ _ => need_mapNext fun _ _ => rfl

theorem acceptHash_reframe (seed offset length : Word) :
    (s.reframe r m).acceptHash seed offset length = (s.acceptHash seed offset length).reframe r m := by
  simp only [State.reframe, State.acceptHash, State.beginAccept, State.takeCmd, State.clearStatus, State.latch,
    State.setBusy, State.goTo]

theorem acceptHashv_reframe (value : Word) :
    (s.reframe r m).acceptHashv value = (s.acceptHashv value).reframe r m := by
  simp only [State.reframe, State.acceptHashv, State.beginAccept, State.takeCmd, State.clearStatus, State.latch,
    State.setBusy, State.goTo]

/-- Acceptance of a pending command does not look at earlier responses or at the view. -/
theorem acceptDecoded_reframe (d : Decoded) :
    (s.reframe r m).acceptDecoded d = (s.acceptDecoded d).reframe r m := by
  unfold State.acceptDecoded
  split
  · exact acceptHash_reframe ..
  · exact acceptHashv_reframe _
  · exact reframe_raise (s := s.beginAccept) .illegalCmd

/-- An instruction does not look at earlier responses, nor at a byte of the view it does not read. -/
theorem exec_reframe (i : Instr)
    (hb : ∀ ptr, s.ptr = some ptr → ∀ j < bytesRead s i, m.byteAt (ptr.toNat + j) = s.view.byteAt (ptr.toNat + j)) :
    exec i (s.reframe r m) = mapNext (State.reframe r m) (exec i s) := by
  cases i with
  | hash a b c =>
    show execHash a b c (s.reframe r m) = mapNext _ (execHash a b c s)
    rw [execHash, execHash, show (s.reframe r m).phase = s.phase from rfl, acceptHash_reframe]
    split <;> rfl
  | hashv v =>
    show execHashv v (s.reframe r m) = mapNext _ (execHashv v s)
    rw [execHashv, execHashv, show (s.reframe r m).phase = s.phase from rfl, acceptHashv_reframe]
    split <;> rfl
  | accept =>
    show execAccept (s.reframe r m) = mapNext _ (execAccept s)
    rw [execAccept, execAccept, show (s.reframe r m).phase = s.phase from rfl,
      show (s.reframe r m).cmd = s.cmd from rfl]
    split
    · cases s.cmd with
      | none => rfl
      | some c => exact congrArg _ (acceptDecoded_reframe _)
    · rfl
  | check =>
    refine need_mapNext fun ptr _ => need_mapNext fun len _ => ?_
    rw [show (s.reframe r m).viewLen = s.viewLen from rfl]
    split
    · exact congrArg _ (reframe_raise .bounds)
    · rfl
  | linit => exact need_mapNext fun _ _ => rfl
  | blk =>
    refine need_mapNext fun _ _ => need_mapNext fun _ _ => need_mapNext fun _ _ => need_mapNext fun _ _ =>
      need_mapNext fun ptr hptr => need_mapNext fun _ _ => ?_
    have hread (k : Nat) (hk : k + 8 ≤ 32) (j : Nat) (hj : j < 8) :
        m.byteAt (ptr.toNat + k + j) = s.view.byteAt (ptr.toNat + k + j) := by
      rw [Nat.add_assoc]
      exact hb ptr hptr (k + j) (by simp only [bytesRead]; omega)
    exact withView_mapNext (hread 0 (by omega)) fun _ => withView_mapNext (hread 8 (by omega)) fun _ =>
      withView_mapNext (hread 16 (by omega)) fun _ => withView_mapNext (hread 24 (by omega)) fun _ => rfl
  | fold =>
    exact need_mapNext fun _ _ => need_mapNext fun _ _ => need_mapNext fun _ _ => need_mapNext fun _ _ => rfl
  | mrg1 | mrg2 | mrg3 => exact mergeLane_reframe
  | mrg4 => exact need_mapNext fun _ _ => need_mapNext fun _ _ => rfl
  | sseed => exact need_mapNext fun _ _ => rfl
  | addlen => exact need_mapNext fun _ _ => need_mapNext fun _ _ => need_mapNext fun _ _ => rfl
  | t8 =>
    exact need_mapNext fun _ _ => need_mapNext fun ptr hptr => need_mapNext fun _ _ =>
      withTailWord_mapNext (fun himm j hj => hb ptr hptr j (by simpa [bytesRead, himm] using hj)) fun _ => rfl
  | t4 =>
    exact need_mapNext fun _ _ => need_mapNext fun ptr hptr => need_mapNext fun _ _ =>
      withView_mapNext (hb ptr hptr) fun _ => rfl
  | t1 =>
    exact need_mapNext fun _ _ => need_mapNext fun ptr hptr => need_mapNext fun _ _ =>
      withView_mapNext (hb ptr hptr) fun _ => rfl
  | aval => exact need_mapNext fun _ _ => rfl
  | ret =>
    refine need_mapNext fun h _ => ?_
    rw [reframe_setDone_emit]
    rfl

end Reframe

theorem outWithView_eq_mapNext (o : Out) (m : Memory) : outWithView o m = mapNext (State.reframe [] m) o := by
  cases o <;> rfl

/-- Settles O36: a step of a sound state reads at most the bytes left. -/
theorem stepReadsOnlyUnconsumedBytes : Obligations.StepReadsOnlyUnconsumedBytes := by
  intro s m ptr rem hs hptr hrem hagree
  have hle := hs.bytesRead_le hrem
  rw [step_eq, step_eq, outWithView_eq_mapNext]
  refine exec_reframe (r := []) s.phase.instr fun p hp j hj => ?_
  obtain rfl : ptr = p := Option.some.inj (hptr.symm.trans hp)
  exact hagree _ (by omega) (by omega)

/-! ### Every command is answered, and alike from every idle state (R30, R114, R191) -/

/-- No step writes the view (R42). -/
theorem step_view (h : step s = .next t) : t.view = s.view := by
  cases stepEffect_of_step h with
  | data _ h => exact h.keepsControl.view
  | _ => simp

/-- A run does not look at the responses emitted before it. -/
theorem runs_reframe {k : Nat} (r : List Response) (h : RunsTo k s t) :
    RunsTo k (s.reframe r s.view) (t.reframe r s.view) := by
  induction k generalizing s with
  | zero =>
    obtain rfl : s = t := by simpa [RunsTo] using h
    rfl
  | succ k ih =>
    cases hs : step s with
    | next u =>
      have hu : RunsTo k u t := (runs_succ hs).symm.trans h
      have hstep : step (s.reframe r s.view) = .next (u.reframe r s.view) := by
        rw [step_eq] at hs ⊢
        rw [← mapNext_next, ← hs]
        exact exec_reframe s.phase.instr fun _ _ _ _ => rfl
      have hrun := ih hu
      rw [step_view hs] at hrun
      exact runsTo_succ hstep hrun
    | fault f => simp [RunsTo, runs_fault hs] at h
    | refused f => simp [RunsTo, runs_refused hs] at h

/-- How far a phase is from the end of its command, not counting the bytes left. -/
def phaseRank : Phase → Nat
  | .idle => 0
  | .ret => 1
  | .aval => 2
  | .t8 | .t4 | .t1 => 3
  | .addlen => 4
  | .mrg4 | .sseed => 5
  | .mrg3 => 6
  | .mrg2 => 7
  | .mrg1 => 8
  | .fold => 9
  | .blk => 10
  | .linit => 11
  | .check => 12

/-- What decreases at every step of a running command (R114). -/
def workLeft (s : State) : Nat := phaseRank s.phase + (s.rem.getD 0).toNat

theorem phaseRank_nextTail_le (r : Word) : phaseRank (nextTail r) ≤ 3 := by
  obtain ⟨-, h⟩ | ⟨-, -, h⟩ | ⟨-, -, h⟩ | ⟨-, h⟩ := nextTail_cases r <;> rw [h] <;> decide

theorem phaseRank_nextBlock_le (r : Word) : phaseRank (nextBlock r) ≤ 10 := by
  obtain ⟨-, h⟩ | ⟨-, h⟩ := nextBlock_cases r <;> rw [h] <;> decide

theorem phaseRank_pathOf_lt (len : Word) : phaseRank (pathOf len) < 12 := by
  obtain ⟨-, h⟩ | ⟨-, h⟩ := pathOf_cases len <;> rw [h] <;> decide

theorem phaseRank_scalarRows {p q : Phase} (hrow : (p, q) ∈ scalarRows) : phaseRank q < phaseRank p := by
  have all : ∀ r ∈ scalarRows, phaseRank r.2 < phaseRank r.1 := by decide
  exact all _ hrow

theorem phaseRank_tailRows {p : Phase} {n : Nat} (hrow : (p, n) ∈ tailRows) : phaseRank p = 3 ∧ 1 ≤ n := by
  have all : ∀ r ∈ tailRows, phaseRank r.1 = 3 ∧ 1 ≤ r.2 := by decide
  exact all _ hrow

/-- A datapath micro-operation moves to a later phase, or stays and consumes bytes. -/
theorem DataEffect.workLeft_lt (hs : Inv s) (hp : s.phase ≠ .idle) (h : DataEffect s s.phase t) :
    workLeft t < workLeft s := by
  have hfit := fun {rem} => hs.remFits (rem := rem) hp
  unfold workLeft
  generalize s.phase = p at h hfit
  cases h with
  | linit | mrg4 => simp [phaseRank]
  | @blk _ _ _ _ _ rem _ hrem =>
    obtain ⟨_, hfit⟩ := hfit hrem
    have hn : 32 ≤ rem.toNat := by simpa [Machine.remFits] using hfit
    have hr : (rem - 32#64).toNat = rem.toNat - 32 := toNat_sub_of_le hn
    have hrank := phaseRank_nextBlock_le (rem - 32#64)
    simp only [State.goTo_phase, State.goTo_rem, State.consume_rem, hrem, Option.getD_some, hr,
      show phaseRank .blk = 10 from rfl]
    omega
  | scalar x hrow => simpa using phaseRank_scalarRows hrow
  | @addlen _ rem hrem =>
    have hrank := phaseRank_nextTail_le rem
    simp only [State.goTo_phase, State.goTo_rem, State.setH_rem, show phaseRank .addlen = 4 from rfl]
    omega
  | @tail _ _ n _ rem hrow _ hrem =>
    obtain ⟨_, hfit⟩ := hfit hrem
    have hn : n ≤ rem.toNat := (remFits_tailRows hrow hfit).1
    have hr : (rem - BitVec.ofNat 64 n).toNat = rem.toNat - n := toNat_sub_of_le hn
    have hrank := phaseRank_nextTail_le (rem - BitVec.ofNat 64 n)
    obtain ⟨hp, hpos⟩ := phaseRank_tailRows hrow
    simp only [State.goTo_phase, State.goTo_rem, State.consume_rem, hrem, Option.getD_some, hr, hp]
    omega

/-- A step of a running command answers it, or leaves less work and emits nothing. -/
theorem Inv.answers_or_works (hs : Inv s) (hp : s.phase ≠ .idle) (h : step s = .next t) :
    (t.phase = .idle ∧ ∃ e, t.resp = s.resp ++ [e]) ∨
      (t.phase ≠ .idle ∧ t.resp = s.resp ∧ workLeft t < workLeft s) := by
  cases stepEffect_of_step h with
  | wait hidle | hash hidle | hashv hidle | illegal hidle => exact absurd hidle hp
  | bounds => exact .inl ⟨rfl, _, rfl⟩
  | path hcheck =>
    refine .inr ⟨(pathOf_phase _).1, rfl, ?_⟩
    simpa [workLeft, hcheck, phaseRank] using phaseRank_pathOf_lt _
  | data _ h => exact .inr ⟨h.phase_ne_idle, h.keepsControl.resp, h.workLeft_lt hs hp⟩
  | ret => exact .inl ⟨rfl, _, rfl⟩

/-- A running command is answered after finitely many steps (R114). -/
theorem Inv.answered (hs : Inv s) (hp : s.phase ≠ .idle) :
    ∃ k t e, RunsTo k s t ∧ t.resp = s.resp ++ [e] ∧ t.phase = .idle := by
  induction hw : workLeft s using Nat.strong_induction_on generalizing s with
  | _ w ih =>
    obtain ⟨u, hu⟩ := hs.step_total
    obtain ⟨hidle, e, he⟩ | ⟨hrun, hquiet, hless⟩ := hs.answers_or_works hp hu
    · exact ⟨1, u, e, runsTo_one hu, he, hidle⟩
    · obtain ⟨k, t, e, hk, he, hidle⟩ := ih _ (hw ▸ hless) (stepKeepsInvariant s u hs hu) hrun rfl
      exact ⟨k + 1, t, e, runsTo_succ hu hk, by rw [he, hquiet], hidle⟩

/-- A `HASH` accepted by an idle engine starts from what reset and acceptance leave, behind the earlier responses. -/
theorem acceptHash_eq_reframe (hl : LanesEmpty s) (hh : s.h = none) (seed offset length : Word) :
    s.acceptHash seed offset length =
      ((State.resetWith s.view s.viewLen).acceptHash seed offset length).reframe s.resp s.view := by
  obtain ⟨h1, h2, h3, h4⟩ := hl
  cases s
  simp_all [State.reframe, State.acceptHash, State.resetWith, State.beginAccept, State.takeCmd, State.clearStatus,
    State.latch, State.setBusy, State.goTo]

/-- So does a `HASHV`. -/
theorem acceptHashv_eq_reframe (hl : LanesEmpty s) (hh : s.h = none) (value : Word) :
    s.acceptHashv value = ((State.resetWith s.view s.viewLen).acceptHashv value).reframe s.resp s.view := by
  obtain ⟨h1, h2, h3, h4⟩ := hl
  cases s
  simp_all [State.reframe, State.acceptHashv, State.resetWith, State.beginAccept, State.takeCmd, State.clearStatus,
    State.latch, State.setBusy, State.goTo]

/-- Two states run the same number of steps to the same answer. -/
def SameAnswer (s s' : State) : Prop :=
  ∃ (k : Nat) (t t' : State) (e : Response), RunsTo k s t ∧ RunsTo k s' t' ∧
    t.resp = s.resp ++ [e] ∧ t'.resp = s'.resp ++ [e] ∧
    t.status = t'.status ∧ t.errcode = t'.errcode ∧ t.digest = t'.digest ∧ t.phase = .idle ∧ t'.phase = .idle

/-- States whose first step leads to one sound running state, behind their own responses, answer alike. -/
theorem sameAnswer_of_reframe {s' u : State} (hu : Inv u) (hp : u.phase ≠ .idle) (hr : u.resp = [])
    (h : step s = .next (u.reframe s.resp u.view)) (h' : step s' = .next (u.reframe s'.resp u.view)) :
    SameAnswer s s' := by
  obtain ⟨k, t, e, hk, he, hidle⟩ := hu.answered hp
  have hresp (r : List Response) : (t.reframe r u.view).resp = r ++ [e] := by simp [State.reframe, he, hr]
  exact ⟨k + 1, t.reframe s.resp u.view, t.reframe s'.resp u.view, e, runsTo_succ h (runs_reframe s.resp hk),
    runsTo_succ h' (runs_reframe s'.resp hk), hresp s.resp, hresp s'.resp, rfl, rfl, rfl, hidle, hidle⟩

/-- The step that takes the pending command. -/
theorem step_of_pending {c : Descriptor} (hp : s.phase = .idle) (hc : s.cmd = some c) :
    step s = .next (s.acceptDecoded (decodeCommand c)) := by
  rw [step_eq, hp]
  show execAccept s = _
  simp [execAccept, hp, hc]

/-- Settles O38: acceptance leaves of the history nothing but the responses emitted. -/
theorem answerIndependentOfHistory : Obligations.AnswerIndependentOfHistory := by
  intro s s' c hs hs' hp hp' hc hc' hview hlen
  have hstep := step_of_pending hp hc
  have hstep' := step_of_pending hp' hc'
  obtain ⟨hl, hh⟩ := hs.accumulators_empty hp (by decide)
  obtain ⟨hl', hh'⟩ := hs'.accumulators_empty hp' (by decide)
  have hreset : Inv (State.resetWith s.view s.viewLen) := inv_resetWith hs.view.1 hs.view.2
  obtain ⟨a, b, d, hd⟩ | ⟨v, hd⟩ | ⟨w, hd⟩ := decodeCommand_cases c
  · rw [hd, acceptDecoded_hash, acceptHash_eq_reframe hl hh] at hstep
    rw [hd, acceptDecoded_hash, acceptHash_eq_reframe hl' hh', ← hview, ← hlen] at hstep'
    exact sameAnswer_of_reframe (hreset.acceptHash rfl a b d) (by simp) rfl hstep hstep'
  · rw [hd, acceptDecoded_hashv, acceptHashv_eq_reframe hl hh] at hstep
    rw [hd, acceptDecoded_hashv, acceptHashv_eq_reframe hl' hh', ← hview, ← hlen] at hstep'
    exact sameAnswer_of_reframe (hreset.acceptHashv rfl v) (by simp) rfl hstep hstep'
  · rw [hd, acceptDecoded_illegal] at hstep hstep'
    exact ⟨1, _, _, _, runsTo_one hstep, runsTo_one hstep', rfl, rfl, by simp [State.status], rfl, rfl, rfl, rfl⟩

end Sys2Proof.Machine
end

section
/-! PROOFS. Reads of the view and what they hand on, what an instruction leaves unchanged, which instructions read the
view, and the tail's narrow steps (R42 to R47, R102, R105, R108, R110, R149, R150, R168). -/

namespace Sys2Proof.Machine

variable {s t : State}

/-! ### Little-endian words of different widths (R44, R45, R47) -/

/-- R44's sum over the bytes. -/
theorem leNat_eq_sum (f : Nat → Byte) (a n : Nat) :
    leNat f a n = ∑ i ∈ Finset.range n, (f (a + i)).toNat * 2 ^ (8 * i) := by
  induction n with
  | zero => rfl
  | succ n ih => rw [leNat_succ, ih, Finset.sum_range_succ]

/-- The low bytes of a number are the number of its low bytes. -/
theorem leNat_mod (f : Nat → Byte) (a : Nat) {k n : Nat} (hk : k ≤ n) : leNat f a n % 2 ^ (8 * k) = leNat f a k := by
  induction n, hk using Nat.le_induction with
  | base => exact Nat.mod_eq_of_lt (leNat_lt f a k)
  | succ n hkn ih =>
    have hdvd : 2 ^ (8 * k) ∣ (f (a + n)).toNat * 2 ^ (8 * n) :=
      Dvd.dvd.mul_left (Nat.pow_dvd_pow 2 (by omega)) _
    rw [leNat_succ, Nat.add_mod, Nat.mod_eq_zero_of_dvd hdvd, Nat.add_zero, Nat.mod_mod, ih]

/-- A narrow word is the low part of a wide one, zero-extended. -/
theorem leWord_eq_setWidth (f : Nat → Byte) (a : Nat) {k n : Nat} (hk : k ≤ n) (hn : n ≤ 8) :
    leWord f a k = ((leWord f a n).setWidth (8 * k)).setWidth 64 := by
  apply BitVec.eq_of_toNat_eq
  rw [BitVec.toNat_setWidth, BitVec.toNat_setWidth, leWord_toNat f a hn, leNat_mod f a hk,
    leWord, BitVec.toNat_ofNat]

/-- The one-byte word is the byte, zero-extended. -/
theorem leWord_one (f : Nat → Byte) (a : Nat) : leWord f a 1 = (f a).setWidth 64 := by
  apply BitVec.eq_of_toNat_eq
  rw [BitVec.toNat_setWidth, leWord, BitVec.toNat_ofNat]
  simp [leNat_succ]

/-- The bytes of a number, least significant first, make the number (R105). -/
theorem leNat_of_bytes {f : Nat → Byte} {a n : Nat} {v : Word}
    (hf : ∀ i < n, f (a + i) = v.extractLsb' (8 * i) 8) : leNat f a n = v.toNat % 2 ^ (8 * n) := by
  induction n with
  | zero => simp [Nat.mod_one]
  | succ n ih =>
    rw [leNat_succ, ih fun i hi => hf i (by omega), hf n (by omega), BitVec.extractLsb'_toNat,
      Nat.shiftRight_eq_div_pow, Nat.mul_succ, Nat.pow_add, Nat.mod_mul, Nat.mul_comm (_ % 2 ^ 8)]

theorem leWord_of_bytes {f : Nat → Byte} {a : Nat} {v : Word}
    (hf : ∀ i < 8, f (a + i) = v.extractLsb' (8 * i) 8) : leWord f a 8 = v := by
  apply BitVec.eq_of_toNat_eq
  rw [leWord_toNat f a (Nat.le_refl 8), leNat_of_bytes hf, Nat.mod_eq_of_lt (by omega)]

/-- Settles O28: a read inside the view hands on `leWord`, whose number is R44's sum. -/
theorem memReadIsLittleEndianSum : Obligations.MemReadIsLittleEndianSum := by
  intro s a n k hn hin
  exact ⟨_, withView_inside hin k, by rw [leWord_toNat _ _ (by omega), leNat_eq_sum]⟩

/-- Settles O29. -/
theorem subWordReadsZeroExtend : Obligations.SubWordReadsZeroExtend := fun m a =>
  ⟨leWord_eq_setWidth m.byteAt a (k := 4) (by omega) (by omega),
    leWord_eq_setWidth m.byteAt a (k := 1) (by omega) (by omega), leWord_one m.byteAt a⟩

/-! ### What instructions leave unchanged (R42, R102, R108, R168, R174) -/

/-- Settles O30: no shape of a datapath micro-operation's effect writes one of these. -/
theorem datapathFrame : Obligations.DatapathFrame := by
  intro i s t hi h
  obtain ⟨p, rfl⟩ := exists_phase_of_mem_datapath hi
  have hk := (dataEffect_of_exec hi h).keepsControl
  exact ⟨hk.seed, hk.len, hk.val, hk.imm, hk.busy, hk.done, hk.err, hk.errcode, hk.digest, hk.cmd, hk.resp, hk.viewLen,
    fun a => by rw [hk.view]⟩

/-- Everything HASH, HASHV, ACCEPT, CHECK and RET can do to `s`. An accepting instruction is one that is neither CHECK nor
RET. -/
inductive ControlEffect (s : State) : Instr → State → Prop where
  /-- Nothing to accept, or outside IDLE (R100, R101). -/
  | held {i : Instr} (hc : i ≠ .check) (hr : i ≠ .ret) : ControlEffect s i s
  | hash {i : Instr} (hc : i ≠ .check) (hr : i ≠ .ret) (seed offset length : Word) :
      ControlEffect s i (s.acceptHash seed offset length)
  | hashv {i : Instr} (hc : i ≠ .check) (hr : i ≠ .ret) (value : Word) : ControlEffect s i (s.acceptHashv value)
  | illegal {i : Instr} (hc : i ≠ .check) (hr : i ≠ .ret) : ControlEffect s i (s.beginAccept.raise .illegalCmd)
  | bounds : ControlEffect s .check (s.raise .bounds)
  | path (p : Phase) : ControlEffect s .check (s.goTo p)
  | ret (h : Word) : ControlEffect s .ret ((((s.setDone h).emit (.ok h)).dropH).goTo .idle)

/-- An instruction that is no datapath micro-operation has one of these effects. -/
theorem controlEffect_of_exec {i : Instr} (hi : i ∉ datapath) (h : exec i s = .next t) : ControlEffect s i t := by
  cases i with
  | hash a b c =>
    obtain ⟨-, rfl⟩ | ⟨-, rfl⟩ := execHash_next.1 h
    · exact .hash (by simp) (by simp) a b c
    · exact .held (by simp) (by simp)
  | hashv v =>
    obtain ⟨-, rfl⟩ | ⟨-, rfl⟩ := execHashv_next.1 h
    · exact .hashv (by simp) (by simp) v
    · exact .held (by simp) (by simp)
  | accept =>
    obtain ⟨_, a, b, c, -, -, -, rfl⟩ | ⟨_, v, -, -, -, rfl⟩ | ⟨_, _, -, -, -, rfl⟩ | ⟨-, rfl⟩ := execAccept_next.1 h
    · exact .hash (by simp) (by simp) a b c
    · exact .hashv (by simp) (by simp) v
    · exact .illegal (by simp) (by simp)
    · exact .held (by simp) (by simp)
  | check =>
    obtain ⟨_, _, -, -, ⟨-, rfl⟩ | ⟨-, rfl⟩⟩ := execCheck_next.1 h
    · exact .bounds
    · exact .path _
  | ret =>
    obtain ⟨x, -, rfl⟩ := execRet_next.1 h
    exact .ret x
  | _ => exact absurd (by decide) hi

/-- Settles O32, by what a control instruction can do. -/
theorem controlFrame : Obligations.ControlFrame := by
  intro i s t hi h
  have hd : i ∉ datapath := by
    obtain ⟨_, _, _, rfl⟩ | ⟨_, rfl⟩ | hi := hi
    · simp
    · simp
    · have all : ∀ j ∈ [Instr.accept, .check, .ret], j ∉ datapath := by decide
      exact all i hi
  cases controlEffect_of_exec hd h with
  | held => simp
  | hash hc hr | hashv hc hr | illegal hc hr => simp [hc, hr]
  | bounds | path | ret => simp

/-- Settles O33: neither the datapath nor the control instructions write the view. -/
theorem noInstructionWritesView : Obligations.NoInstructionWritesView := by
  intro i s t h
  by_cases hd : i ∈ datapath
  · obtain ⟨p, rfl⟩ := exists_phase_of_mem_datapath hd
    have hk := (dataEffect_of_exec hd h).keepsControl
    exact ⟨hk.view, hk.viewLen⟩
  · cases controlEffect_of_exec hd h <;> simp

/-! ### Which instructions read the view (R43) -/

/-- Only BLK, T8 of a `HASH`, T4 and T1 read bytes. -/
theorem bytesRead_eq_zero {i : Instr} (h : i ∉ [Instr.blk, .t8, .t4, .t1] ∨ (i = .t8 ∧ s.imm = some true)) :
    bytesRead s i = 0 := by
  obtain hi | ⟨rfl, himm⟩ := h
  · cases i with
    | blk | t8 | t4 | t1 => exact absurd (by decide) hi
    | _ => rfl
  · simp [bytesRead, himm]

/-- Settles O35: an instruction that reads no byte has the same outcome over any view. -/
theorem otherInstructionsReadNoMemory : Obligations.OtherInstructionsReadNoMemory := by
  intro i s m hi
  rw [outWithView_eq_mapNext]
  exact exec_reframe (r := []) i fun _ _ j hj => absurd hj (by simp [bytesRead_eq_zero hi])

/-! ### The tail's narrow steps (R110, R149, R150) -/

/-- Below four bytes the tail goes on with single bytes or ends. -/
theorem nextTail_of_lt_four {r : Word} (h : r.toNat < 4) :
    nextTail r = if r.toNat ≥ 1 then .t1 else .aval := by
  rw [nextTail, if_neg (by omega), if_neg (by omega)]

/-- Settles O19. -/
theorem t4ConsumesWord : Obligations.T4ConsumesWord := by
  intro s h ptr rem hh hptr hrem hle hlt hin
  have hsub : (rem - 4#64).toNat = rem.toNat - 4 := toNat_sub_of_le hle
  refine execT4_next.2 ⟨h, ptr, rem, hh, hptr, hrem, hin, ?_⟩
  rw [nextTail_of_lt_four (by omega), hsub]
  rfl

/-- Settles O20. -/
theorem t1ConsumesByte : Obligations.T1ConsumesByte := by
  intro s h ptr rem hh hptr hrem hle hlt hin
  have hsub : (rem - 1#64).toNat = rem.toNat - 1 := toNat_sub_of_le hle
  refine execT1_next.2 ⟨h, ptr, rem, hh, hptr, hrem, hin, ?_⟩
  rw [nextTail_of_lt_four (by omega), hsub, leWord_one]
  rfl

/-! ### A `HASHV` and a `HASH` of its eight bytes (R105) -/

/-- A step performs the micro-operation of the phase the state is in. -/
theorem step_of_phase {p : Phase} (hp : s.phase = p) (h : exec p.instr s = .next t) : step s = .next t := by
  rw [step_eq, hp, h]

/-- After `k` steps the engine has emitted one response, `e`. -/
def Answers (k : Nat) (s : State) (e : Response) : Prop := ∃ t, RunsTo k s t ∧ t.resp = s.resp ++ [e]

/-- A step that emits nothing leaves the answer to the steps after it. -/
theorem answers_succ {k : Nat} {e : Response} (h : step s = .next t) (hr : t.resp = s.resp) (ha : Answers k t e) :
    Answers (k + 1) s e := by
  obtain ⟨u, hu, hresp⟩ := ha
  exact ⟨u, runsTo_succ h hu, by rw [hresp, hr]⟩

/-- From AVAL the answer is the avalanche of H (R161, R168). -/
theorem answers_of_aval {x : Word} (hp : s.phase = .aval) (hh : s.h = some x) : Answers 2 s (.ok (avalanche x)) := by
  refine answers_succ (step_of_phase hp (execAval_next.2 ⟨x, hh, rfl⟩)) rfl ?_
  exact ⟨_, runsTo_one (step_of_phase (p := .ret) rfl (execRet_next.2 ⟨avalanche x, rfl, rfl⟩)), rfl⟩

/-- `w` is the word T8 reads: VAL in a `HASHV`, eight bytes of the view at `ptr` in a `HASH` (R148). -/
abbrev TailWord (s : State) (ptr w : Word) : Prop :=
  (s.imm = some true ∧ s.val = some w) ∨
    (s.imm = some false ∧ ptr.toNat + 8 ≤ s.viewLen ∧ w = leWord s.view.byteAt ptr.toNat 8)

/-- From T8 with eight bytes left. -/
theorem answers_of_t8 {x ptr w : Word} (hp : s.phase = .t8) (hh : s.h = some x) (hptr : s.ptr = some ptr)
    (hrem : s.rem = some 8#64) (hw : TailWord s ptr w) :
    Answers 3 s (.ok (avalanche (tail8 x w))) :=
  answers_succ (step_of_phase hp (execT8_next.2 ⟨x, ptr, _, w, hh, hptr, hrem, hw, rfl⟩)) rfl (answers_of_aval rfl rfl)

/-- From SSEED with seed 0 and eight bytes left (R104, R146, R147). -/
theorem answers_of_sseed {ptr w : Word} (hp : s.phase = .sseed) (hseed : s.seed = some 0#64) (hlen : s.len = some 8#64)
    (hptr : s.ptr = some ptr) (hrem : s.rem = some 8#64) (hw : TailWord s ptr w) :
    Answers 5 s (.ok (avalanche (tail8 (0#64 + P5 + 8#64) w))) := by
  refine answers_succ (step_of_phase hp (execSseed_next.2 ⟨_, hseed, rfl⟩)) rfl ?_
  refine answers_succ (step_of_phase (p := .addlen) rfl (execAddlen_next.2 ⟨_, _, _, rfl, hlen, hrem, rfl⟩)) rfl ?_
  exact answers_of_t8 rfl rfl hptr hrem hw

/-- CHECK lets eight bytes inside a sound state's view pass and selects the scalar path (R108). -/
theorem step_check_eight {ptr : Word} (hp : s.phase = .check) (hptr : s.ptr = some ptr) (hlen : s.len = some 8#64)
    (hin : ptr.toNat + 8 ≤ s.viewLen) (hview : s.viewLen < 2 ^ 63) : step s = .next (s.goTo .sseed) := by
  have hmsb : ptr.msb = false := BitVec.msb_eq_false_iff_two_mul_lt.2 (by omega)
  have hb : boundsViolated ptr 8#64 s.viewLen = false := by
    simp [boundsViolated, hmsb, hin, show (8#64).msb = false by decide]
  exact step_of_phase hp (execCheck_next.2 ⟨ptr, _, hptr, hlen, .inr ⟨hb, rfl⟩⟩)

/-- Settles O52: both commands reach SSEED with the same word before T8, one in VAL and one in the view. -/
theorem hashvEqualsHashOfBytes : Obligations.HashvEqualsHashOfBytes := by
  intro s s' c c' value a hs' hp hp' hc hc' hd hd' hin hbytes
  have haccept : step s = .next (s.acceptHashv value) := by
    rw [step_of_pending hp hc, hd, acceptDecoded_hashv]
  have haccept' : step s' = .next (s'.acceptHash 0 a 8) := by
    rw [step_of_pending hp' hc', hd', acceptDecoded_hash]
  have hcheck : step (s'.acceptHash 0 a 8) = .next ((s'.acceptHash 0 a 8).goTo .sseed) :=
    step_check_eight rfl rfl rfl hin hs'.viewLen_lt
  have hword : value = leWord s'.view.byteAt a.toNat 8 := (leWord_of_bytes hbytes).symm
  have hvalue := answers_of_sseed (s := s.acceptHashv value) (ptr := 0) rfl rfl rfl rfl rfl (.inl ⟨rfl, rfl⟩)
  have hview := answers_of_sseed (s := (s'.acceptHash 0 a 8).goTo .sseed) rfl rfl rfl rfl rfl
    (.inr ⟨rfl, hin, hword⟩)
  obtain ⟨t, ht, hresp⟩ := answers_succ haccept rfl hvalue
  obtain ⟨t', ht', hresp'⟩ := answers_succ haccept' rfl (answers_succ hcheck rfl hview)
  exact ⟨_, t, t', ht, ht', hresp, hresp'⟩

end Sys2Proof.Machine
end

section
/-! PROOFS. The fields of a descriptor and what the decoder makes of them (R61 to R67), the instruction a step runs
(R66, R100, R102), illegal descriptors (R65, R174), and the commands over the whole view (R69, R106, R107). -/

namespace Sys2Proof

/-! ### The fields of a descriptor (R61) -/

section Fields
variable (w3 w2 w1 : Word) (opc : Byte)

@[simp] theorem opcField_descriptor : opcField (descriptor w3 w2 w1 opc) = opc := by
  rw [opcField, descriptor, BitVec.extractLsb'_append_eq_of_add_le (by decide), BitVec.extractLsb'_append_eq_right]

@[simp] theorem rsv0Field_descriptor : rsv0Field (descriptor w3 w2 w1 opc) = 0#56 := by
  rw [rsv0Field, descriptor, BitVec.extractLsb'_append_eq_of_add_le (by decide), BitVec.extractLsb'_append_eq_left]

@[simp] theorem w1Field_descriptor : w1Field (descriptor w3 w2 w1 opc) = w1 := by
  rw [w1Field, descriptor, BitVec.extractLsb'_append_eq_of_le (by decide),
    BitVec.extractLsb'_append_eq_of_add_le (by decide), BitVec.extractLsb'_eq_self]

@[simp] theorem w2Field_descriptor : w2Field (descriptor w3 w2 w1 opc) = w2 := by
  rw [w2Field, descriptor, BitVec.extractLsb'_append_eq_of_le (by decide),
    BitVec.extractLsb'_append_eq_of_le (by decide), BitVec.extractLsb'_append_eq_of_add_le (by decide),
    BitVec.extractLsb'_eq_self]

@[simp] theorem w3Field_descriptor : w3Field (descriptor w3 w2 w1 opc) = w3 := by
  rw [w3Field, descriptor, BitVec.extractLsb'_append_eq_of_le (by decide),
    BitVec.extractLsb'_append_eq_of_le (by decide), BitVec.extractLsb'_append_eq_left]

end Fields

section Command
variable {c : Descriptor}

/-- A descriptor whose RSV0 is zero is put together from its other fields. -/
theorem descriptor_fields (h : rsv0Field c = 0#56) :
    descriptor (w3Field c) (w2Field c) (w1Field c) (opcField c) = c := by
  have hlow : (0#56 ++ opcField c : BitVec (56 + 8)) = c.extractLsb' 0 (56 + 8) := by
    rw [← h]
    exact BitVec.extractLsb'_append_extractLsb'_eq_extractLsb' rfl
  have hhigh : w3Field c ++ w2Field c ++ w1Field c = c.extractLsb' 64 (64 + 64 + 64) := by
    rw [w3Field, w2Field, BitVec.extractLsb'_append_extractLsb'_eq_extractLsb' (show 192 = 128 + 64 from rfl)]
    exact BitVec.extractLsb'_append_extractLsb'_eq_extractLsb' rfl
  rw [descriptor, hlow, hhigh]
  exact BitVec.extractLsb'_append_extractLsb'

/-! ### What the decoder answers (R62, R65, R67) -/

@[simp] theorem decodeCommand_descriptor_hash (seed offset length : Word) :
    decodeCommand (descriptor length offset seed 0x01#8) = .instr (.hash seed offset length) := by
  simp [decodeCommand]

@[simp] theorem decodeCommand_descriptor_hashv (w3 w2 value : Word) :
    decodeCommand (descriptor w3 w2 value 0x02#8) = .instr (.hashv value) := by
  simp [decodeCommand]

theorem decodeCommand_illegal_iff :
    (∃ why, decodeCommand c = .illegal why) ↔ rsv0Field c ≠ 0#56 ∨ (opcField c ≠ 0x01#8 ∧ opcField c ≠ 0x02#8) := by
  unfold decodeCommand
  split
  · next hrsv => simp [hrsv]
  · next hrsv =>
    rw [not_not] at hrsv
    split
    · next hopc => simp [hrsv, hopc]
    · next hopc => split <;> simp [*]

/-- A legal descriptor is put together from its operand words and one of the two opcodes. -/
theorem decodeCommand_instr_cases {i : Instr} (h : decodeCommand c = .instr i) :
    (c = descriptor (w3Field c) (w2Field c) (w1Field c) 0x01#8 ∧ i = .hash (w1Field c) (w2Field c) (w3Field c)) ∨
      (c = descriptor (w3Field c) (w2Field c) (w1Field c) 0x02#8 ∧ i = .hashv (w1Field c)) := by
  have hlegal : ¬(rsv0Field c ≠ 0#56 ∨ (opcField c ≠ 0x01#8 ∧ opcField c ≠ 0x02#8)) := fun hbad => by
    obtain ⟨why, hwhy⟩ := decodeCommand_illegal_iff.2 hbad
    simp [h] at hwhy
  obtain ⟨hrsv, hopc⟩ : rsv0Field c = 0#56 ∧ (opcField c = 0x01#8 ∨ opcField c = 0x02#8) := by tauto
  have hc := (descriptor_fields hrsv).symm
  obtain hopc | hopc := hopc <;> rw [hopc] at hc
  · rw [hc, decodeCommand_descriptor_hash] at h
    exact .inl ⟨hc, (Decoded.instr.inj h).symm⟩
  · rw [hc, decodeCommand_descriptor_hashv] at h
    exact .inr ⟨hc, (Decoded.instr.inj h).symm⟩

theorem decodeCommand_hash_iff {seed offset length : Word} :
    decodeCommand c = .instr (.hash seed offset length) ↔ c = descriptor length offset seed 0x01#8 := by
  refine ⟨fun h => ?_, fun h => by rw [h, decodeCommand_descriptor_hash]⟩
  obtain ⟨hc, hi⟩ | ⟨-, hi⟩ := decodeCommand_instr_cases h
  · cases hi
    exact hc
  · cases hi

theorem decodeCommand_hashv_iff {value : Word} :
    decodeCommand c = .instr (.hashv value) ↔ ∃ w3 w2, c = descriptor w3 w2 value 0x02#8 := by
  refine ⟨fun h => ?_, fun ⟨_, _, h⟩ => by rw [h, decodeCommand_descriptor_hashv]⟩
  obtain ⟨-, hi⟩ | ⟨hc, hi⟩ := decodeCommand_instr_cases h
  · cases hi
  · cases hi
    exact ⟨_, _, hc⟩

/-! ### The fields as arithmetic on the descriptor's number -/

theorem opcField_toNat : (opcField c).toNat = c.toNat % 2 ^ 8 := by simp [opcField]

theorem rsv0Field_toNat : (rsv0Field c).toNat = c.toNat / 2 ^ 8 % 2 ^ 56 := by
  simp [rsv0Field, Nat.shiftRight_eq_div_pow]

theorem w1Field_eq : w1Field c = BitVec.ofNat 64 (c.toNat / 2 ^ 64) := by
  rw [w1Field, BitVec.extractLsb', Nat.shiftRight_eq_div_pow]

theorem w2Field_eq : w2Field c = BitVec.ofNat 64 (c.toNat / 2 ^ 128) := by
  rw [w2Field, BitVec.extractLsb', Nat.shiftRight_eq_div_pow]

theorem w3Field_eq : w3Field c = BitVec.ofNat 64 (c.toNat / 2 ^ 192) := by
  rw [w3Field, BitVec.extractLsb', Nat.shiftRight_eq_div_pow]

theorem opcField_eq_iff {n : Nat} (hn : n < 2 ^ 8) : opcField c = BitVec.ofNat 8 n ↔ c.toNat % 2 ^ 8 = n := by
  rw [← BitVec.toNat_inj, opcField_toNat, BitVec.toNat_ofNat, Nat.mod_eq_of_lt hn]

theorem rsv0Field_eq_zero_iff : rsv0Field c = 0#56 ↔ c.toNat / 2 ^ 8 % 2 ^ 56 = 0 := by
  rw [← BitVec.toNat_inj, rsv0Field_toNat, BitVec.toNat_ofNat, Nat.zero_mod]

/-- The low word is a byte exactly when RSV0 is zero and OPC is that byte (R61). -/
theorem low_word_eq_iff {n : Nat} (hn : n < 2 ^ 8) :
    c.toNat % 2 ^ 64 = n ↔ rsv0Field c = 0#56 ∧ opcField c = BitVec.ofNat 8 n := by
  rw [rsv0Field_eq_zero_iff, opcField_eq_iff hn]
  omega

/-- R65, R172: the two tests of R67 on the descriptor's number. -/
theorem decodeCommand_illegal_iff_toNat :
    (∃ why, decodeCommand c = .illegal why) ↔
      c.toNat / 2 ^ 8 % 2 ^ 56 ≠ 0 ∨ (c.toNat % 2 ^ 8 ≠ 0x01 ∧ c.toNat % 2 ^ 8 ≠ 0x02) := by
  rw [decodeCommand_illegal_iff, ne_eq, rsv0Field_eq_zero_iff, ne_eq, opcField_eq_iff (by decide), ne_eq,
    opcField_eq_iff (by decide)]

end Command

/-! ### Format U (R66, R67) -/

@[simp] theorem encode_instr (p : Phase) : encode p.instr = .micro p.code := by cases p <;> rfl

@[simp] theorem Phase.code_ofCode (code : BitVec 4) : (Phase.ofCode code).code = code := by
  revert code
  decide

/-! ### Decoding and encoding -/

/-- R60, R67: the decoder inverts the encoder on both formats. -/
theorem decode_encode (i : Instr) : decode (encode i) = .instr i := by
  cases i with
  | hash seed offset length => exact decodeCommand_descriptor_hash seed offset length
  | hashv value => exact decodeCommand_descriptor_hashv 0#64 0#64 value
  | accept | check | linit | blk | fold | mrg1 | mrg2 | mrg3 | mrg4 | sseed | addlen | t8 | t4 | t1 | aval | ret => rfl

theorem encode_decodeMicro (code : BitVec 4) : encode (decodeMicro code) = .micro code := by
  rw [decodeMicro, encode_instr, Phase.code_ofCode]

/-- Settles O1, from the one form of a descriptor that decodes to each command. -/
theorem decodeEncodeRoundTrip : Obligations.DecodeEncodeRoundTrip := by
  refine ⟨fun i _ => decode_encode i, fun c seed offset length h => ?_, fun c value h => ?_, encode_decodeMicro⟩
  · rw [decodeCommand_hash_iff.1 h, encode]
  · obtain ⟨w3, w2, hc⟩ := decodeCommand_hashv_iff.1 h
    exact ⟨w2, w3, hc⟩

/-- Settles O2, reading the tests of R67 on the low word and the operand words off the fields. -/
theorem decodeFollowsFieldTests : Obligations.DecodeFollowsFieldTests := by
  refine ⟨fun c => ⟨fun hrsv => ?_, fun hlow => ?_, fun hlow => ?_, fun h1 h2 => ?_⟩, rfl⟩
  · exact decodeCommand_illegal_iff_toNat.2 (.inl hrsv)
  · obtain ⟨hrsv, hopc⟩ := (low_word_eq_iff (by decide)).1 hlow
    rw [← w1Field_eq, ← w2Field_eq, ← w3Field_eq, decodeCommand_hash_iff, ← hopc, descriptor_fields hrsv]
  · obtain ⟨hrsv, hopc⟩ := (low_word_eq_iff (by decide)).1 hlow
    rw [← w1Field_eq, decodeCommand_hashv_iff, ← hopc]
    exact ⟨_, _, (descriptor_fields hrsv).symm⟩
  · refine decodeCommand_illegal_iff_toNat.2 ?_
    omega

/-- Settles O3: seven closed words, each decoded by evaluation. -/
theorem decodeSanityWords : Obligations.DecodeSanityWords := by
  unfold Obligations.DecodeSanityWords
  decide

end Sys2Proof

namespace Sys2Proof.Machine

/-! ### The instruction a step runs (R66, R100, R102) -/

variable {s : State}

/-- An idle engine with an empty slot waits (R100). -/
theorem step_of_empty_slot (hp : s.phase = .idle) (hc : s.cmd = none) : step s = .next s :=
  step_of_phase hp (execAccept_next.2 (.inr (.inr (.inr ⟨fun _ => hc, rfl⟩))))

/-- The acceptance of a legal descriptor is the command's own instruction (R102). -/
theorem step_of_pending_instr {c : Descriptor} {i : Instr} (hp : s.phase = .idle) (hc : s.cmd = some c)
    (hd : decodeCommand c = .instr i) : step s = exec i s := by
  rw [step_of_pending hp hc, hd]
  obtain ⟨-, rfl⟩ | ⟨-, rfl⟩ := decodeCommand_instr_cases hd
  · exact (execHash_next.2 (.inl ⟨hp, rfl⟩)).symm
  · exact (execHashv_next.2 (.inl ⟨hp, rfl⟩)).symm

/-- Settles O4. -/
theorem stepRunsSelectedInstruction : Obligations.StepRunsSelectedInstruction :=
  ⟨fun s => ⟨by rw [decode, decodeMicro_code], step_eq s⟩, fun _ _ _ => step_of_pending_instr,
    fun _ => step_of_empty_slot⟩

/-! ### Placed words (log entry 8) -/

theorem decodeTableWord_micro {w : Nat} (hw : w < 16) :
    decodeTableWord 8 w = some (decodeMicro (BitVec.ofNat 4 w)) := by
  simp [decodeTableWord, hw]

theorem decodeTableWord_command {w : Nat} {i : Instr} (h : decodeTableWord 256 w = some i) :
    decodeCommand (BitVec.ofNat 256 w) = .instr i := by
  simp only [decodeTableWord, show ¬256 ≤ 8 by decide, if_false] at h
  split at h
  · split at h
    · next hd => rw [hd, Option.some.inj h]
    · cases h
  · cases h

/-- Settles O5: a code is placed in PHASE, a descriptor in the slot of the idle engine. -/
theorem fetchWordRunsNext : Obligations.FetchWordRunsNext :=
  ⟨fun _ _ hw => ⟨_, decodeTableWord_micro hw, step_eq _⟩,
    fun _ _ _ h => step_of_pending_instr rfl rfl (decodeTableWord_command h)⟩

/-! ### Illegal descriptors (R65, R174) -/

/-- Settles O9: such a descriptor decodes to no command, and acceptance raises ILLEGAL_CMD. -/
theorem illegalDescriptorRaises : Obligations.IllegalDescriptorRaises := by
  intro s c hp hc hbad
  obtain ⟨why, hd⟩ := decodeCommand_illegal_iff_toNat.2 hbad.symm
  rw [step_of_pending hp hc, hd, acceptDecoded_illegal]
  rfl

/-! ### Commands over the whole view (R69, R106, R107) -/

/-- The whole view is in bounds (R108): neither operand reaches `2 ^ 63` and the sum is VIEW_LEN. -/
theorem boundsViolated_whole_view {n : Nat} (hn : n < 2 ^ 63) : boundsViolated 0 (BitVec.ofNat 64 n) n = false := by
  have hlen : (BitVec.ofNat 64 n).toNat = n := by rw [BitVec.toNat_ofNat, Nat.mod_eq_of_lt (by omega)]
  have hmsb : (BitVec.ofNat 64 n).msb = false := BitVec.msb_eq_false_iff_two_mul_lt.2 (by omega)
  rw [boundsViolated, hmsb, hlen]
  simp

/-- The descriptor of a `HASH` of the whole view from a seed (R106). -/
def wholeViewHash (seed : Word) (viewLen : Nat) : Descriptor := descriptor (BitVec.ofNat 64 viewLen) 0 seed 0x01#8

/-- A pending `HASH` of the whole view is accepted, passes CHECK and selects its path. -/
theorem wholeViewHash_runs {seed : Word} (hp : s.phase = .idle) (hc : s.cmd = some (wholeViewHash seed s.viewLen))
    (hn : s.viewLen < 2 ^ 63) :
    RunsTo 2 s ((s.acceptHash seed 0 (BitVec.ofNat 64 s.viewLen)).goTo (pathOf (BitVec.ofNat 64 s.viewLen))) := by
  have haccept : step s = .next (s.acceptHash seed 0 (BitVec.ofNat 64 s.viewLen)) := by
    rw [step_of_pending hp hc, wholeViewHash, decodeCommand_descriptor_hash, acceptDecoded_hash]
  have hcheck := execCheck_next.2 ⟨0, BitVec.ofNat 64 s.viewLen, State.acceptHash_ptr s seed 0 _,
    State.acceptHash_len s seed 0 _, .inr ⟨boundsViolated_whole_view hn, rfl⟩⟩
  exact runsTo_succ haccept (runsTo_one (step_of_phase (p := .check) rfl hcheck))

theorem assemble_hashd (viewLen : Nat) : Asm.assemble viewLen .hashd = some (wholeViewHash 0 viewLen) := rfl

theorem assemble_hashs (viewLen : Nat) (seed : Word) :
    Asm.assemble viewLen (.hashs seed.toNat) = some (wholeViewHash seed viewLen) := by
  simp [Asm.assemble, Asm.wellFormed, fitsWord, seed.isLt, Asm.expand, encode, wholeViewHash]

theorem assemble_hasht {text : List Byte} (h : text.length ≤ Config.maxViewLen) (viewLen : Nat) :
    Asm.assemble viewLen (.hasht text) = some (wholeViewHash 0 text.length) := by
  simp [Asm.assemble, Asm.wellFormed, h, Asm.expand, encode, wholeViewHash]

/-- HASHD and HASHS present a `HASH` of the whole view; HASHD's seed is 0 (R69, R106). -/
theorem issue_whole_view {a : Asm} {seed : Word} (ha : a = .hashd ∧ seed = 0 ∨ a = .hashs seed.toNat)
    (hc : s.cmd = none) : State.issue a s = some { s with cmd := some (wholeViewHash seed s.viewLen) } := by
  obtain ⟨rfl, rfl⟩ | rfl := ha
  · simp only [State.issue, assemble_hashd, Option.bind_some]
    exact present_some.2 ⟨hc, rfl⟩
  · simp only [State.issue, assemble_hashs, Option.bind_some]
    exact present_some.2 ⟨hc, rfl⟩

/-- HASHT places its text, then presents a `HASH` of the whole view with seed 0 (R107). -/
theorem issue_hasht {text : List Byte} (hw : s.viewWritable = true) (hl : text.length ≤ Config.maxViewLen)
    (hc : s.cmd = none) :
    State.issue (.hasht text) s =
      some { s with
        view := Memory.ofBytesFrom 0 text, viewLen := text.length, cmd := some (wholeViewHash 0 text.length) } := by
  simp only [State.issue, placeView_some.2 ⟨hw, hl, rfl⟩, assemble_hasht hl, Option.bind_some]
  exact present_some.2 ⟨hc, rfl⟩

/-- With no command waiting or running the view is writable (R115). -/
theorem Inv.viewWritable_of_idle (hs : Inv s) (hp : s.phase = .idle) (hc : s.cmd = none) : s.viewWritable = true := by
  refine viewWritable_iff_no_hash.2 ⟨fun hb => absurd hp (hs.busy.1 hb), fun c _ _ _ hcmd => ?_⟩
  simp [hc] at hcmd

/-- Settles O59: each command becomes the pending `HASH` of the whole view, which CHECK lets pass. -/
theorem fullViewCommandsPassBounds : Obligations.FullViewCommandsPassBounds := by
  refine ⟨fun s a seed hs hp hc ha => ?_, fun s text hs hp hc hl => ?_⟩
  · have hrun := wholeViewHash_runs (s := { s with cmd := some (wholeViewHash seed s.viewLen) }) hp rfl hs.viewLen_lt
    exact ⟨_, _, issue_whole_view ha hc, hrun, by simp⟩
  · have hn : text.length < 2 ^ 63 := by omega
    have hissue := issue_hasht (hs.viewWritable_of_idle hp hc) hl hc
    exact ⟨_, _, hissue, wholeViewHash_runs hp rfl hn, by simp [Memory.slice_ofBytesFrom_zero]⟩

end Sys2Proof.Machine
end

section
/-! PROOFS. The functions on words: rotation moves bits and has an inverse, multiplication by an odd constant and the
mixing steps are bijections, their expressions over the library's rotation, and the lanes' seeds (R80 to R91, R131,
R148 to R150). -/

namespace Sys2Proof.Machine

/-! ### Rotation (R83) -/

/-- `rotl64` is the library's rotation for every amount below the width. -/
theorem rotl64_eq_rotateLeft (x : Word) {r : Nat} (hr : r < 64) : rotl64 x r = x.rotateLeft r := by
  rw [rotl64, BitVec.rotateLeft_def, Nat.mod_eq_of_lt hr]

/-- Settles O24: the low `64 - r` bits move up by `r`, the high `r` bits wrap around to the bottom. -/
theorem rotationMovesEveryBit : Obligations.RotationMovesEveryBit := by
  intro x r i hr1 hr hi
  rw [rotl64_eq_rotateLeft x (by omega), BitVec.getLsbD_rotateLeft_of_le (by omega)]
  by_cases hwrap : i + r < 64
  · simp [Nat.mod_eq_of_lt hwrap, hwrap]
  · have hmod : (i + r) % 64 = i + r - 64 := by omega
    have hback : 64 - r + (i + r - 64) = i := by omega
    simp [hmod, hback, show i + r - 64 < r by omega]

/-- Rotating on by what is missing to 64 brings every bit back. -/
theorem rotl64_rotl64_sub (x : Word) {r : Nat} (hr1 : 1 ≤ r) (hr : r ≤ 63) : rotl64 (rotl64 x r) (64 - r) = x := by
  apply BitVec.eq_of_getLsbD_eq
  intro i hi
  have hi' : i = ((i + r) % 64 + (64 - r)) % 64 := by omega
  calc (rotl64 (rotl64 x r) (64 - r)).getLsbD i
      = (rotl64 (rotl64 x r) (64 - r)).getLsbD (((i + r) % 64 + (64 - r)) % 64) := by rw [← hi']
    _ = (rotl64 x r).getLsbD ((i + r) % 64) := rotationMovesEveryBit _ _ _ (by omega) (by omega) (by omega)
    _ = x.getLsbD i := rotationMovesEveryBit _ _ _ hr1 hr hi

theorem rotl64_bijective {r : Nat} (hr1 : 1 ≤ r) (hr : r ≤ 63) : Function.Bijective fun x => rotl64 x r := by
  refine Function.bijective_iff_has_inverse.2
    ⟨fun x => rotl64 x (64 - r), fun x => rotl64_rotl64_sub x hr1 hr, fun x => ?_⟩
  have h := rotl64_rotl64_sub x (r := 64 - r) (by omega) (by omega)
  rwa [Nat.sub_sub_self (by omega)] at h

/-! ### Multiplication and exclusive or (R82, R85) -/

/-- An odd word is coprime to `2 ^ 64`, so it has an inverse modulo `2 ^ 64`. -/
theorem isUnit_of_odd {c : Word} (hc : c.getLsbD 0 = true) : IsUnit c := by
  have hodd : Odd c.toNat := by simpa [BitVec.getLsbD, Nat.odd_iff] using hc
  obtain ⟨d, -, hd⟩ := Nat.exists_mul_mod_eq_one_of_coprime (hodd.coprime_two_right.pow_right 64) (by norm_num)
  refine IsUnit.of_mul_eq_one (BitVec.ofNat 64 d) (BitVec.eq_of_toNat_eq ?_)
  simpa [Nat.mul_mod] using hd

theorem mul_bijective_of_odd {c : Word} (hc : c.getLsbD 0 = true) : Function.Bijective fun x : Word => x * c :=
  IsUnit.isUnit_iff_mulRight_bijective.1 (isUnit_of_odd hc)

theorem xor_bijective (c : Word) : Function.Bijective fun x : Word => x ^^^ c :=
  Function.Involutive.bijective fun x => by simp

theorem P1_odd : P1.getLsbD 0 = true := by decide
theorem P2_odd : P2.getLsbD 0 = true := by decide
theorem P3_odd : P3.getLsbD 0 = true := by decide
theorem P5_odd : P5.getLsbD 0 = true := by decide

/-- Settles O25: the four constants are odd, and every odd constant multiplies bijectively. -/
theorem oddMultiplicationBijective : Obligations.OddMultiplicationBijective :=
  ⟨⟨P1_odd, P2_odd, P3_odd, P5_odd⟩, mul_bijective_of_odd P1_odd, mul_bijective_of_odd P2_odd,
    mul_bijective_of_odd P3_odd, mul_bijective_of_odd P5_odd⟩

/-! ### The mixing steps (R88, R90, R148) -/

/-- Rotation and multiplication by P1, the end of `mix` and of `tail8`. -/
theorem rotl64_mul_P1_bijective {r : Nat} (hr1 : 1 ≤ r) (hr : r ≤ 63) :
    Function.Bijective fun x => rotl64 x r * P1 :=
  (mul_bijective_of_odd P1_odd).comp (rotl64_bijective hr1 hr)

theorem mix_bijective_left (w : Word) : Function.Bijective fun a => mix a w :=
  (rotl64_mul_P1_bijective (by decide) (by decide)).comp (AddGroup.addRight_bijective (w * P2))

theorem mix_bijective_right (a : Word) : Function.Bijective fun w => mix a w :=
  (rotl64_mul_P1_bijective (by decide) (by decide)).comp
    ((AddGroup.addLeft_bijective a).comp (mul_bijective_of_odd P2_odd))

theorem update_bijective (v : Word) : Function.Bijective fun h => update h v :=
  (AddGroup.addRight_bijective P4).comp ((mul_bijective_of_odd P1_odd).comp (xor_bijective (mix 0#64 v)))

theorem tail8_bijective (w : Word) : Function.Bijective fun h => tail8 h w :=
  (AddGroup.addRight_bijective P4).comp
    ((rotl64_mul_P1_bijective (by decide) (by decide)).comp (xor_bijective (mix 0#64 w)))

/-- Settles O26: each step is a chain of additions, exclusive ors, rotations and odd multiplications. -/
theorem mixingStepsBijective : Obligations.MixingStepsBijective :=
  ⟨mix_bijective_left, mix_bijective_right, update_bijective, tail8_bijective⟩

/-- Settles O23: the constants are R80's, and the rotations are the library's. -/
theorem primitivesFollowExpressions : Obligations.PrimitivesFollowExpressions := by
  intro h w
  refine ⟨?_, rfl, ?_, ?_, ?_⟩
  · rw [mix, rotl64_eq_rotateLeft _ (by decide)]; rfl
  · rw [tail8, rotl64_eq_rotateLeft _ (by decide)]; rfl
  · rw [tail4, rotl64_eq_rotateLeft _ (by decide)]; rfl
  · rw [tail1, rotl64_eq_rotateLeft _ (by decide)]; rfl

/-! ### The lanes' seeds (R91, R131) -/

theorem laneInit1_eq (seed : Word) : laneInit1 seed = seed + 0x60EA27EEADC0B5D6 := by
  have hoffset : P1 + P2 = 0x60EA27EEADC0B5D6 := by decide
  rw [laneInit1, BitVec.add_assoc, hoffset]

theorem laneInit4_eq (seed : Word) : laneInit4 seed = seed + 0x61C8864E7A143579 := by
  have hoffset : -P1 = 0x61C8864E7A143579 := by decide
  rw [laneInit4, BitVec.sub_eq_add_neg, hoffset]

/-- Settles O12: lane 1 adds the sum of two constants, lane 4 the negation of one. -/
theorem linitSeedsLanes : Obligations.LinitSeedsLanes := by
  intro s seed hseed
  refine execLinit_next.2 ⟨seed, hseed, ?_⟩
  rw [laneInit1_eq, laneInit4_eq]
  rfl

end Sys2Proof.Machine
end

section
/-! PROOFS. Acceptance, CHECK and the tail's first steps, register by register, and the transition table (R102 to R104,
R108 to R111, R147, R148). -/

namespace Sys2Proof.Machine

variable {s t : State}

/-! ### Acceptance (R102 to R104) -/

/-- Settles O6. -/
theorem hashLatchesOperands : Obligations.HashLatchesOperands := fun _ _ _ _ hp => execHash_next.2 (.inl ⟨hp, rfl⟩)

/-- Settles O7. -/
theorem hashvLatchesValue : Obligations.HashvLatchesValue := fun _ _ hp => execHashv_next.2 (.inl ⟨hp, rfl⟩)

/-- Settles O8: ACCEPT is the step of the idle engine, which performs the pending command, or faults (R65). -/
theorem acceptTakesPendingCommand : Obligations.AcceptTakesPendingCommand := by
  intro s c hp hc
  have hstep : exec .accept s = step s := by rw [step_eq, hp, Phase.instr]
  rw [hstep]
  refine ⟨fun seed offset length hd => ?_, fun value hd => ?_, fun why hd => ?_⟩
  · rw [step_of_pending_instr hp hc hd]
    exact hashLatchesOperands s seed offset length hp
  · rw [step_of_pending_instr hp hc hd]
    exact hashvLatchesValue s value hp
  · exact illegalDescriptorRaises s c hp hc (decodeCommand_illegal_iff_toNat.1 ⟨why, hd⟩).symm

/-! ### CHECK (R108) -/

/-- The three conditions of R108. -/
theorem boundsViolated_iff {ptr len : Word} {n : Nat} :
    boundsViolated ptr len n = true ↔
      ptr.getLsbD 63 = true ∨ len.getLsbD 63 = true ∨ n < ptr.toNat + len.toNat := by
  simp [boundsViolated, BitVec.msb_eq_getLsbD_last, or_assoc]

/-- Over a view that ends below `2 ^ 63` an operand with bit 63 set already makes the sum too large. -/
theorem boundsViolated_eq_decide {ptr len : Word} {n : Nat} (hn : n < 2 ^ 63) :
    boundsViolated ptr len n = decide (n < ptr.toNat + len.toNat) := by
  have hmsb (x : Word) (hx : x.msb = true) : n < x.toNat := by
    have := BitVec.msb_eq_true_iff_two_mul_ge.1 hx
    omega
  rw [Bool.eq_iff_iff, decide_eq_true_iff]
  constructor
  · intro h
    obtain hp | hl | hsum := by simpa [boundsViolated, or_assoc] using h
    · exact Nat.lt_add_right _ (hmsb ptr hp)
    · exact Nat.lt_add_left _ (hmsb len hl)
    · exact hsum
  · exact fun hsum => boundsViolated_iff.2 (.inr (.inr hsum))

/-- Settles O11. -/
theorem checkTestsBoundsAndSelectsPath : Obligations.CheckTestsBoundsAndSelectsPath := by
  refine fun s ptr len hptr hlen => ⟨fun hbad => ?_, fun hp hl hin => ?_⟩
  · exact execCheck_next.2 ⟨ptr, len, hptr, hlen, .inl ⟨boundsViolated_iff.2 hbad, rfl⟩⟩
  · have hb : boundsViolated ptr len s.viewLen = false := by
      rw [Bool.eq_false_iff, ne_eq, boundsViolated_iff, hp, hl]
      simpa using hin
    have hcheck : exec .check s = .next (s.goTo (pathOf len)) :=
      execCheck_next.2 ⟨ptr, len, hptr, hlen, .inr ⟨hb, rfl⟩⟩
    refine ⟨fun h32 => ?_, fun h32 => ?_⟩
    · rw [hcheck, pathOf, if_pos h32]
      rfl
    · rw [hcheck, pathOf, if_neg (by omega)]
      rfl

/-! ### ADDLEN and T8 (R110, R147, R148) -/

/-- `NEXT_TAIL` of what is left after `n` bytes, over numbers. -/
theorem nextTail_sub {rem : Word} {n : Nat} (hn : n ≤ rem.toNat) :
    nextTail (rem - BitVec.ofNat 64 n) =
      if rem.toNat - n ≥ 8 then .t8 else if rem.toNat - n ≥ 4 then .t4
        else if rem.toNat - n ≥ 1 then .t1 else .aval := by
  rw [nextTail, toNat_sub_of_le hn]

/-- Settles O17. -/
theorem addlenAddsLength : Obligations.AddlenAddsLength := fun _ h len rem hh hlen hrem =>
  execAddlen_next.2 ⟨h, len, rem, hh, hlen, hrem, rfl⟩

/-- Settles O18: the word comes from VAL or from the view. -/
theorem t8ConsumesWord : Obligations.T8ConsumesWord := by
  intro s h ptr rem hh hptr hrem hle
  rw [← nextTail_sub hle]
  exact ⟨fun v himm hval => execT8_next.2 ⟨h, ptr, rem, v, hh, hptr, hrem, .inl ⟨himm, hval⟩, rfl⟩,
    fun himm hin => execT8_next.2 ⟨h, ptr, rem, _, hh, hptr, hrem, .inr ⟨himm, hin, rfl⟩, rfl⟩⟩

/-! ### The transition table (R111) -/

/-- The table's rows of the datapath micro-operations. -/
theorem DataEffect.phase_eq_tableNext (hs : Inv s) (hp : s.phase ≠ .idle) (h : DataEffect s s.phase t) :
    t.phase = tableNext s := by
  have hfit := fun {rem} => hs.remFits (rem := rem) hp
  unfold tableNext
  generalize s.phase = p at h hfit
  cases h with
  | linit | mrg4 => rfl
  | @blk _ _ _ _ _ rem _ hrem =>
    obtain ⟨_, hfit⟩ := hfit hrem
    have hn : 32 ≤ rem.toNat := by simpa [Machine.remFits] using hfit
    show nextBlock (rem - BitVec.ofNat 64 32) = _
    rw [nextBlock, toNat_sub_of_le hn, hrem]
    rfl
  | scalar x hrow =>
    obtain ⟨rfl, rfl⟩ | ⟨rfl, rfl⟩ | ⟨rfl, rfl⟩ | ⟨rfl, rfl⟩ | ⟨rfl, rfl⟩ | ⟨rfl, rfl⟩ := mem_scalarRows.1 hrow <;> rfl
  | addlen x hrem => rw [hrem]; rfl
  | @tail _ _ n _ rem hrow _ hrem =>
    obtain ⟨_, hfit⟩ := hfit hrem
    have hnext := nextTail_sub (remFits_tailRows hrow hfit).1
    obtain ⟨rfl, rfl⟩ | ⟨rfl, rfl⟩ | ⟨rfl, rfl⟩ := mem_tailRows.1 hrow <;> rw [hrem] <;> exact hnext

/-- Settles O47, by what a step can do. -/
theorem transitionTable : Obligations.TransitionTable := by
  intro s t hs h
  cases stepEffect_of_step h with
  | wait hp hc => simp [tableNext, hp, hc]
  | hash hp hc hd | hashv hp hc hd | illegal hp hc hd => simp [tableNext, hp, hc, hd]
  | bounds hp hptr hlen hb =>
    have hsum := by simpa [boundsViolated_eq_decide hs.viewLen_lt] using hb
    simp [tableNext, hp, hptr, hlen, hsum]
  | path hp hptr hlen hb =>
    have hsum := boundsViolated_eq_false hb
    simp [tableNext, hp, hptr, hlen, hsum, pathOf]
  | data hp h => exact h.phase_eq_tableNext hs (ne_idle_of_mem_datapath hp)
  | ret hp => simp [tableNext, hp]

end Sys2Proof.Machine
end

section
/-! PROOFS. Runs by the phases they pass through: the tail, the block loop and the merges, and the whole `HASH` and
`HASHV` with their closed forms (R104, R109, R110, R112, R113, R151), and a `HASH` out of bounds (R108). -/

namespace Sys2Proof.Machine

variable {s t u : State}

/-! ### Runs with their phases (R113) -/

/-- A run from one state to another that passes through the listed phases, one step in each. -/
inductive Passes : List Phase → State → State → Prop where
  | nil {s : State} : Passes [] s s
  | cons {p : Phase} {l : List Phase} {s t u : State} (hp : s.phase = p) (h : step s = .next t) (hr : Passes l t u) :
      Passes (p :: l) s u

/-- The run takes a step per phase. -/
theorem Passes.runsTo {l : List Phase} (h : Passes l s t) : RunsTo l.length s t := by
  induction h with
  | nil => rfl
  | cons _ hs _ ih => exact runsTo_succ hs ih

/-- The phases of the run are the listed ones. -/
theorem Passes.phasesOf_eq {l : List Phase} (h : Passes l s t) : phasesOf l.length s = l := by
  induction h with
  | nil => rfl
  | cons hp hs _ ih => rw [List.length_cons, phasesOf_succ hs, hp, ih]

theorem Passes.append {l l' : List Phase} (h : Passes l s t) (h' : Passes l' t u) : Passes (l ++ l') s u := by
  induction h with
  | nil => exact h'
  | cons hp hs _ ih => exact .cons hp hs (ih h')

/-- The first step of a run performs its phase's micro-operation. -/
theorem passes_cons {p : Phase} {l : List Phase} (hp : s.phase = p) (h : exec p.instr s = .next t)
    (hr : Passes l t u) : Passes (p :: l) s u :=
  .cons hp (step_of_phase hp h) hr

theorem KeepsControl.refl (s : State) : KeepsControl s s := by constructor <;> rfl

theorem KeepsControl.trans (h : KeepsControl s t) (h' : KeepsControl t u) : KeepsControl s u where
  seed := h'.seed.trans h.seed
  len := h'.len.trans h.len
  val := h'.val.trans h.val
  imm := h'.imm.trans h.imm
  busy := h'.busy.trans h.busy
  done := h'.done.trans h.done
  err := h'.err.trans h.err
  errcode := h'.errcode.trans h.errcode
  digest := h'.digest.trans h.digest
  cmd := h'.cmd.trans h.cmd
  resp := h'.resp.trans h.resp
  view := h'.view.trans h.view
  viewLen := h'.viewLen.trans h.viewLen

/-- A run through datapath phases keeps what no datapath micro-operation writes. -/
theorem Passes.keepsControl {l : List Phase} (h : Passes l s t) (hl : ∀ p ∈ l, p.instr ∈ datapath) :
    KeepsControl s t := by
  induction h with
  | nil => exact .refl _
  | cons hp hs _ ih =>
    rw [List.forall_mem_cons] at hl
    obtain ⟨hd, hl⟩ := hl
    rw [step_eq, hp] at hs
    exact (dataEffect_of_exec hd hs).keepsControl.trans (ih hl)

/-! ### A running `HASH` -/

/-- A `HASH` past CHECK, in phase `p` with PTR and REM, what is left inside the view. -/
structure HashAt (s : State) (p : Phase) (ptr rem : Word) : Prop where
  phase : s.phase = p
  hptr : s.ptr = some ptr
  hrem : s.rem = some rem
  himm : s.imm = some false
  inside : ptr.toNat + rem.toNat ≤ s.viewLen
  bounded : s.viewLen < 2 ^ 63

/-- In a sound state past CHECK the latches of a `HASH` are such. -/
theorem Inv.hashAt (hs : Inv s) (hp : s.phase ≠ .idle) (hc : s.phase ≠ .check) (himm : s.imm = some false)
    {ptr rem : Word} (hptr : s.ptr = some ptr) (hrem : s.rem = some rem) : HashAt s s.phase ptr rem := by
  obtain ⟨_, _, ptr', rem', hl⟩ | ⟨_, _, _, _, hl⟩ := hs.latches_cases hp
  · obtain rfl := Option.some.inj (hptr.symm.trans hl.hptr)
    obtain rfl := Option.some.inj (hrem.symm.trans hl.hrem)
    exact ⟨rfl, hptr, hrem, himm, hl.inside.resolve_left hc, hs.viewLen_lt⟩
  · simp [hl.himm] at himm

section HashAt

variable {p : Phase} {ptr rem : Word}

/-- A transfer of control alone. -/
theorem HashAt.goTo (h : HashAt s p ptr rem) (q : Phase) : HashAt (s.goTo q) q ptr rem :=
  ⟨rfl, h.hptr, h.hrem, h.himm, h.inside, h.bounded⟩

theorem HashAt.setH (h : HashAt s p ptr rem) (x : Word) : HashAt (s.setH x) p ptr rem :=
  ⟨h.phase, h.hptr, h.hrem, h.himm, h.inside, h.bounded⟩

theorem HashAt.setLanes (h : HashAt s p ptr rem) (a b c d : Word) : HashAt (s.setLanes a b c d) p ptr rem :=
  ⟨h.phase, h.hptr, h.hrem, h.himm, h.inside, h.bounded⟩

theorem HashAt.dropLanes (h : HashAt s p ptr rem) : HashAt s.dropLanes p ptr rem :=
  ⟨h.phase, h.hptr, h.hrem, h.himm, h.inside, h.bounded⟩

/-- PTR and REM as numbers, after `n` of the bytes left are consumed. -/
theorem HashAt.toNat_consumed (h : HashAt s p ptr rem) {n : Nat} (hn : n ≤ rem.toNat) :
    (ptr + BitVec.ofNat 64 n).toNat = ptr.toNat + n ∧ (rem - BitVec.ofNat 64 n).toNat = rem.toNat - n := by
  have hin := h.inside
  have hb := h.bounded
  exact ⟨toNat_add_of_lt (by omega), toNat_sub_of_le hn⟩

/-- Some of the bytes left are consumed. -/
theorem HashAt.consume (h : HashAt s p ptr rem) {n : Nat} (hn : n ≤ rem.toNat) :
    HashAt (s.consume ptr rem (BitVec.ofNat 64 n)) p (ptr + BitVec.ofNat 64 n) (rem - BitVec.ofNat 64 n) := by
  obtain ⟨hptr, hrem⟩ := h.toNat_consumed hn
  refine ⟨h.phase, rfl, rfl, h.himm, ?_, h.bounded⟩
  have hin := h.inside
  rw [hptr, hrem, State.consume_viewLen]
  omega

end HashAt

/-! ### The loops of the closed form, one round at a time (R112)

Each round is stated between functions and then applied: the kernel compares arguments first, and those of two rounds
differ by a mixing step it would evaluate. -/

theorem tail8Loop_succ (b : Nat → Byte) (n q : Nat) (x : Word) :
    tail8Loop b (n + 1) q x = tail8Loop b n (q + 8) (tail8 x (leWord b q 8)) :=
  have hround : tail8Loop b (n + 1) = fun q x => tail8Loop b n (q + 8) (tail8 x (leWord b q 8)) := rfl
  congrFun₂ hround q x

theorem tail1Loop_succ (b : Nat → Byte) (n q : Nat) (x : Word) :
    tail1Loop b (n + 1) q x = tail1Loop b n (q + 1) (tail1 x (leWord b q 1)) :=
  have hround : tail1Loop b (n + 1) = fun q x => tail1Loop b n (q + 1) (tail1 x (leWord b q 1)) := rfl
  congrFun₂ hround q x

/-- The lanes after one block at `p` (R132). -/
def Lanes.mixBlock (b : Nat → Byte) (p : Nat) (l : Lanes) : Lanes :=
  ⟨mix l.v1 (leWord b p 8), mix l.v2 (leWord b (p + 8) 8), mix l.v3 (leWord b (p + 16) 8),
    mix l.v4 (leWord b (p + 24) 8)⟩

theorem blockLoop_succ (b : Nat → Byte) (q p : Nat) (l : Lanes) :
    blockLoop b (q + 1) p l = blockLoop b q (p + 32) (l.mixBlock b p) :=
  have hround : blockLoop b (q + 1) = fun p l => blockLoop b q (p + 32) (l.mixBlock b p) := rfl
  congrFun₂ hround p l

@[simp] theorem tail8Loop_zero (b : Nat → Byte) (q : Nat) (x : Word) : tail8Loop b 0 q x = x := rfl
@[simp] theorem tail1Loop_zero (b : Nat → Byte) (q : Nat) (x : Word) : tail1Loop b 0 q x = x := rfl

/-! ### The tail (R110, R151) -/

/-- What the tail's micro-operations make of H and the word they read (R148 to R150). -/
def tailMix : Phase → Word → Word → Word
  | .t8 => tail8
  | .t4 => tail4
  | _ => tail1

/-- With `r` bytes left the tail goes on with phase `p`, which consumes `n` of them: the choice of NEXT_TAIL, the trace
and the closed form agree on it. -/
structure TailGoesOn (r : Nat) (p : Phase) (n : Nat) : Prop where
  row : (p, n) ∈ tailRows
  le : n ≤ r
  next : ∀ w : Word, w.toNat = r → nextTail w = p
  trace : tailTrace r = p :: tailTrace (r - n)
  loop : ∀ b q x, tailLoop b q r x = tailLoop b (q + n) (r - n) (tailMix p x (leWord b q n))

theorem tailGoesOn_t8 {r : Nat} (hr : 8 ≤ r) : TailGoesOn r .t8 8 := by
  have h8 : t8Count r = t8Count (r - 8) + 1 := by unfold t8Count; omega
  have h4 : t4Count (r - 8) = t4Count r := by unfold t4Count; rw [← Nat.mod_eq_sub_mod hr]
  have h1 : t1Count (r - 8) = t1Count r := by unfold t1Count; omega
  refine ⟨by decide, hr, fun w hw => by rw [nextTail, if_pos (by omega)], ?_, fun b q x => ?_⟩
  · simp [tailTrace, h8, h4, h1, List.replicate_succ]
  · have haddr : q + 8 + 8 * t8Count (r - 8) = q + 8 * (t8Count (r - 8) + 1) := by omega
    rw [tailLoop, tailLoop, h8, h4, h1, haddr, tail8Loop_succ]
    rfl

theorem tailGoesOn_t4 {r : Nat} (hr : 4 ≤ r) (hr8 : r < 8) : TailGoesOn r .t4 4 := by
  have h8 : t8Count r = 0 ∧ t8Count (r - 4) = 0 := by unfold t8Count; omega
  have h4 : t4Count r = 1 ∧ t4Count (r - 4) = 0 :=
    ⟨by rw [t4Count, if_pos (by omega)], by rw [t4Count, if_neg (by omega)]⟩
  have h1 : t1Count (r - 4) = t1Count r := by unfold t1Count; omega
  refine ⟨by decide, hr, fun w hw => by rw [nextTail, if_neg (by omega), if_pos (by omega)], ?_, fun b q x => ?_⟩
  · simp [tailTrace, h8, h4, h1]
  · simp [tailLoop, h8, h4, h1, tailMix]

theorem tailGoesOn_t1 {r : Nat} (hr : 1 ≤ r) (hr4 : r < 4) : TailGoesOn r .t1 1 := by
  have h8 : t8Count r = 0 ∧ t8Count (r - 1) = 0 := by unfold t8Count; omega
  have h4 : t4Count r = 0 ∧ t4Count (r - 1) = 0 :=
    ⟨by rw [t4Count, if_neg (by omega)], by rw [t4Count, if_neg (by omega)]⟩
  have h1 : t1Count r = t1Count (r - 1) + 1 := by unfold t1Count; omega
  refine ⟨by decide, hr, fun w hw => ?_, ?_, fun b q x => ?_⟩
  · rw [nextTail_of_lt_four (by omega), if_pos (by omega)]
  · simp [tailTrace, h8, h4, h1, List.replicate_succ]
  · simp [tailLoop, h8, h4, h1, tail1Loop_succ, tailMix]

theorem tailLoop_zero (b : Nat → Byte) (q : Nat) (x : Word) : tailLoop b q 0 x = x := rfl

/-- While bytes are left the tail goes on. -/
theorem exists_tailGoesOn {r : Nat} (hr : 0 < r) : ∃ p n, TailGoesOn r p n := by
  by_cases h8 : 8 ≤ r
  · exact ⟨_, _, tailGoesOn_t8 h8⟩
  · by_cases h4 : 4 ≤ r
    · exact ⟨_, _, tailGoesOn_t4 h4 (by omega)⟩
    · exact ⟨_, _, tailGoesOn_t1 hr (by omega)⟩

/-- A tail phase consumes at least a byte. -/
theorem TailGoesOn.pos {r n : Nat} {p : Phase} (h : TailGoesOn r p n) : 1 ≤ n := (phaseRank_tailRows h.row).2

theorem tailTrace_datapath (r : Nat) : ∀ p ∈ tailTrace r, p.instr ∈ datapath := by
  intro p hp
  obtain (hp | hp) | hp : (p ∈ List.replicate _ .t8 ∨ p ∈ List.replicate _ .t4) ∨ p ∈ List.replicate _ .t1 := by
    simpa only [tailTrace, List.mem_append] using hp
  all_goals
    rw [List.eq_of_mem_replicate hp]
    decide

/-- One step of a `HASH` in the tail. -/
theorem HashAt.exec_tail {p : Phase} {n : Nat} {ptr rem x : Word} (hs : HashAt s p ptr rem) (hrow : (p, n) ∈ tailRows)
    (hn : n ≤ rem.toNat) (hx : s.h = some x) :
    exec p.instr s = .next (((s.setH (tailMix p x (leWord s.view.byteAt ptr.toNat n))).consume ptr rem
      (BitVec.ofNat 64 n)).goTo (nextTail (rem - BitVec.ofNat 64 n))) := by
  have hin := hs.inside
  have hread : ptr.toNat + n ≤ s.viewLen := by omega
  obtain ⟨rfl, rfl⟩ | ⟨rfl, rfl⟩ | ⟨rfl, rfl⟩ := mem_tailRows.1 hrow
  · exact execT8_next.2 ⟨x, ptr, rem, _, hx, hs.hptr, hs.hrem, .inr ⟨hs.himm, hread, rfl⟩, rfl⟩
  · exact execT4_next.2 ⟨x, ptr, rem, hx, hs.hptr, hs.hrem, hread, rfl⟩
  · exact execT1_next.2 ⟨x, ptr, rem, hx, hs.hptr, hs.hrem, hread, rfl⟩

/-- From where NEXT_TAIL leads, the tail consumes what is left and reaches AVAL. -/
theorem HashAt.passes_tail {ptr rem x : Word} (hs : HashAt s (nextTail rem) ptr rem) (hx : s.h = some x) :
    ∃ t, Passes (tailTrace rem.toNat) s t ∧ t.phase = .aval ∧ t.rem = some 0 ∧ t.ptr = some (ptr + rem) ∧
      t.h = some (tailLoop s.view.byteAt ptr.toNat rem.toNat x) := by
  induction hr : rem.toNat using Nat.strong_induction_on generalizing s ptr rem x with
  | _ r ih =>
    obtain rfl | hpos := Nat.eq_zero_or_pos r
    · obtain rfl : rem = 0#64 := BitVec.eq_of_toNat_eq hr
      exact ⟨s, .nil, hs.phase, hs.hrem, by simpa using hs.hptr, hx⟩
    · obtain ⟨p, n, hgo⟩ := exists_tailGoesOn hpos
      rw [hgo.next rem hr] at hs
      have hn : n ≤ rem.toNat := hr ▸ hgo.le
      have hp := hgo.pos
      obtain ⟨hptr', hrem'⟩ := hs.toNat_consumed hn
      rw [hr] at hrem'
      obtain ⟨t, hpass, hphase, hzero, hptr, hh⟩ :=
        ih (r - n) (by omega) (((hs.setH (tailMix p x _)).consume hn).goTo _) rfl hrem'
      refine ⟨t, ?_, hphase, hzero, ?_, ?_⟩
      · rw [hgo.trace]
        exact passes_cons hs.phase (hs.exec_tail hgo.row hn hx) hpass
      · rw [hptr, add_assoc, add_sub_cancel]
      · rw [hh, hgo.loop, hptr']
        rfl

/-- ADDLEN and the tail (R147, R151). -/
theorem HashAt.passes_addlen {ptr rem x len : Word} (hs : HashAt s .addlen ptr rem) (hx : s.h = some x)
    (hlen : s.len = some len) :
    ∃ t, Passes (.addlen :: tailTrace rem.toNat) s t ∧ t.phase = .aval ∧ t.rem = some 0 ∧ t.ptr = some (ptr + rem) ∧
      t.h = some (tailLoop s.view.byteAt ptr.toNat rem.toNat (x + len)) := by
  obtain ⟨t, hpass, h⟩ := ((hs.setH (x + len)).goTo (nextTail rem)).passes_tail rfl
  exact ⟨t, passes_cons hs.phase (execAddlen_next.2 ⟨x, len, rem, hx, hlen, hs.hrem, rfl⟩) hpass, h⟩

/-- Settles O49: the latches of a sound state at ADDLEN are those the tail needs. -/
theorem tailConsumesInOrder : Obligations.TailConsumesInOrder := by
  intro s h len ptr rem hs hp himm hh hlen hptr hrem
  have hat := hs.hashAt (by simp [hp]) (by simp [hp]) himm hptr hrem
  rw [hp] at hat
  obtain ⟨t, hpass, hend⟩ := hat.passes_addlen hh hlen
  rw [Nat.add_comm]
  exact ⟨t, hpass.runsTo, hpass.phasesOf_eq, hend⟩

/-! ### The block path (R109, R112, R133) -/

/-- The lane accumulators hold these values. -/
structure HasLanes (s : State) (l : Lanes) : Prop where
  v1 : s.v1 = some l.v1
  v2 : s.v2 = some l.v2
  v3 : s.v3 = some l.v3
  v4 : s.v4 = some l.v4

/-- From where the block loop's choice leads, it consumes every whole block left and reaches FOLD. -/
theorem HashAt.passes_blocks {q : Nat} {ptr rem : Word} {l : Lanes} (hs : HashAt s (nextBlock rem) ptr rem)
    (hl : HasLanes s l) (hq : rem.toNat / 32 = q) :
    ∃ t ptr' rem', Passes (List.replicate q .blk) s t ∧ HashAt t .fold ptr' rem' ∧
      HasLanes t (blockLoop s.view.byteAt q ptr.toNat l) ∧ ptr'.toNat = ptr.toNat + 32 * q ∧
      rem'.toNat = rem.toNat % 32 := by
  induction q generalizing s ptr rem l with
  | zero =>
    rw [nextBlock, if_neg (by omega)] at hs
    exact ⟨s, ptr, rem, .nil, hs, hl, rfl, by omega⟩
  | succ q ih =>
    have hn : 32 ≤ rem.toNat := by omega
    rw [nextBlock, if_pos hn] at hs
    obtain ⟨hptr', hrem'⟩ := hs.toNat_consumed hn
    obtain ⟨h1, h2, h3, h4⟩ := hl
    have hin := hs.inside
    have hblk := execBlk_next.2 ⟨_, _, _, _, ptr, rem, h1, h2, h3, h4, hs.hptr, hs.hrem, by omega, rfl⟩
    obtain ⟨t, ptr', rem', hpass, hat, hlanes, hptr, hrem⟩ :=
      ih (((hs.setLanes _ _ _ _).consume hn).goTo _) (l := l.mixBlock s.view.byteAt ptr.toNat) ⟨rfl, rfl, rfl, rfl⟩
        (by omega)
    rw [hptr'] at hlanes
    rw [blockLoop_succ]
    exact ⟨t, ptr', rem', passes_cons hs.phase hblk hpass, hat, hlanes, by omega, by omega⟩

/-- A merge step keeps the lanes. -/
theorem HashAt.exec_merge {p q : Phase} {g : Reg} {lane : Option Word} {ptr rem x v : Word} {l : Lanes}
    (hs : HashAt s p ptr rem) (hl : HasLanes s l) (hx : s.h = some x) (hv : lane = some v)
    (he : exec p.instr s = mergeLane g lane q s) :
    ∃ t, exec p.instr s = .next t ∧ HashAt t q ptr rem ∧ HasLanes t l ∧ t.h = some (update x v) :=
  ⟨_, he.trans (mergeLane_next.2 ⟨x, v, hx, hv, rfl⟩), (hs.setH _).goTo q, ⟨hl.v1, hl.v2, hl.v3, hl.v4⟩, rfl⟩

/-- FOLD and the four merges (R141 to R145). -/
theorem HashAt.passes_merges {ptr rem : Word} {l : Lanes} (hs : HashAt s .fold ptr rem) (hl : HasLanes s l) :
    ∃ t, Passes [.fold, .mrg1, .mrg2, .mrg3, .mrg4] s t ∧ HashAt t .addlen ptr rem ∧ t.h = some (mergeLanes l) := by
  have hfold := execFold_next.2 ⟨_, _, _, _, hl.v1, hl.v2, hl.v3, hl.v4, rfl⟩
  have hl0 : HasLanes ((s.setH (foldLanes l.v1 l.v2 l.v3 l.v4)).goTo .mrg1) l := ⟨hl.v1, hl.v2, hl.v3, hl.v4⟩
  obtain ⟨s1, e1, hs1, hl1, hx1⟩ := ((hs.setH _).goTo .mrg1).exec_merge hl0 rfl hl0.v1 rfl
  obtain ⟨s2, e2, hs2, hl2, hx2⟩ := hs1.exec_merge hl1 hx1 hl1.v2 rfl
  obtain ⟨s3, e3, hs3, hl3, hx3⟩ := hs2.exec_merge hl2 hx2 hl2.v3 rfl
  have e4 := execMrg4_next.2 ⟨_, _, hx3, hl3.v4, rfl⟩
  exact ⟨_, passes_cons hs.phase hfold <| passes_cons rfl e1 <| passes_cons hs1.phase e2 <| passes_cons hs2.phase e3 <|
    passes_cons hs3.phase e4 .nil, (hs3.setH _).dropLanes.goTo .addlen, rfl⟩

/-- The part of a trace between CHECK and ADDLEN (R113). -/
def pathTrace (n : Nat) : List Phase :=
  if 32 ≤ n then Phase.linit :: List.replicate (n / 32) Phase.blk ++ [Phase.fold, .mrg1, .mrg2, .mrg3, .mrg4]
  else [.sseed]

theorem hashTrace_eq (n : Nat) :
    hashTrace n = .idle :: .check :: (pathTrace n ++ (Phase.addlen :: tailTrace (n % 32) ++ [Phase.aval, .ret])) := by
  simp [hashTrace, pathTrace]

theorem pathTrace_datapath (n : Nat) : ∀ p ∈ pathTrace n, p.instr ∈ datapath := by
  unfold pathTrace
  split
  · have merges : ∀ p ∈ [Phase.fold, .mrg1, .mrg2, .mrg3, .mrg4], p.instr ∈ datapath := by decide
    intro p hp
    obtain hp | hp := List.mem_append.1 hp
    · obtain rfl | hp := List.mem_cons.1 hp
      · decide
      · rw [List.eq_of_mem_replicate hp]
        decide
    · exact merges p hp
  · decide

/-- From the path CHECK selects, the engine reaches ADDLEN with the scalar of the closed form. -/
theorem HashAt.passes_path {ptr len seed : Word} (hs : HashAt s (pathOf len) ptr len) (hseed : s.seed = some seed) :
    ∃ t ptr' rem', Passes (pathTrace len.toNat) s t ∧ HashAt t .addlen ptr' rem' ∧
      t.h = some (scalarStart s.view.byteAt seed ptr.toNat len.toNat) ∧
      ptr'.toNat = ptr.toNat + 32 * (len.toNat / 32) ∧ rem'.toNat = len.toNat % 32 := by
  obtain ⟨h32, hpath⟩ | ⟨h32, hpath⟩ := pathOf_cases len <;> rw [hpath] at hs
  · have hblk : nextBlock len = .blk := by rw [nextBlock, if_pos h32]
    have hlinit := execLinit_next.2 ⟨seed, hseed, rfl⟩
    rw [← hblk] at hlinit
    have hstart :=
      (hs.setLanes (laneInit1 seed) (laneInit2 seed) (laneInit3 seed) (laneInit4 seed)).goTo (nextBlock len)
    obtain ⟨t, ptr', rem', hblocks, hfold, hlanes, hptr, hrem⟩ :=
      hstart.passes_blocks (l := Lanes.init seed) ⟨rfl, rfl, rfl, rfl⟩ rfl
    obtain ⟨u, hmerges, haddlen, hh⟩ := hfold.passes_merges hlanes
    refine ⟨u, ptr', rem', ?_, haddlen, ?_, hptr, hrem⟩
    · rw [pathTrace, if_pos h32]
      exact passes_cons hs.phase hlinit (hblocks.append hmerges)
    · rw [scalarStart, if_pos h32]
      exact hh
  · refine ⟨_, ptr, len, ?_, (hs.setH (seed + P5)).goTo .addlen, ?_, by omega, by omega⟩
    · rw [pathTrace, if_neg (by omega)]
      exact passes_cons hs.phase (execSseed_next.2 ⟨seed, hseed, rfl⟩) .nil
    · rw [scalarStart, if_neg (by omega)]
      rfl

/-! ### The closed form and the view (R112) -/

theorem Lanes.mixBlock_congr {f g : Nat → Byte} {a c : Nat} (h : ∀ i < 32, f (a + i) = g (c + i)) (l : Lanes) :
    l.mixBlock f a = l.mixBlock g c := by
  have hfirst : leWord f a 8 = leWord g c 8 := leWord_congr fun i hi => h i (by omega)
  have hword (k : Nat) (hk : k ≤ 24) : leWord f (a + k) 8 = leWord g (c + k) 8 :=
    leWord_congr fun i hi => by simpa only [Nat.add_assoc] using h (k + i) (by omega)
  rw [Lanes.mixBlock, hfirst, hword 8 (by omega), hword 16 (by omega), hword 24 (by omega), ← Lanes.mixBlock]

theorem blockLoop_congr {f g : Nat → Byte} {a c q : Nat} (h : ∀ i < 32 * q, f (a + i) = g (c + i)) (l : Lanes) :
    blockLoop f q a l = blockLoop g q c l := by
  induction q generalizing a c l with
  | zero => rfl
  | succ q ih =>
    rw [blockLoop_succ, blockLoop_succ, Lanes.mixBlock_congr fun i hi => h i (by omega)]
    exact ih (fun i hi => by simpa only [Nat.add_assoc] using h (32 + i) (by omega)) _

theorem tailLoop_congr {f g : Nat → Byte} {a c r : Nat} (h : ∀ i < r, f (a + i) = g (c + i)) (x : Word) :
    tailLoop f a r x = tailLoop g c r x := by
  induction r using Nat.strong_induction_on generalizing a c x with
  | _ r ih =>
    obtain rfl | hpos := Nat.eq_zero_or_pos r
    · rw [tailLoop_zero, tailLoop_zero]
    · obtain ⟨p, n, hgo⟩ := exists_tailGoesOn hpos
      have hn := hgo.le
      have hp := hgo.pos
      rw [hgo.loop, hgo.loop, leWord_congr fun i hi => h i (by omega)]
      exact ih (r - n) (by omega) (fun i hi => by simpa only [Nat.add_assoc] using h (n + i) (by omega)) _

/-- The closed form looks at the bytes it hashes only. -/
theorem xxhFrom_congr {f g : Nat → Byte} {a c n : Nat} (h : ∀ i < n, f (a + i) = g (c + i)) (seed : Word) :
    xxhFrom f seed a n = xxhFrom g seed c n := by
  have hstart : scalarStart f seed a n = scalarStart g seed c n := by
    rw [scalarStart, scalarStart, blockLoop_congr fun i hi => h i (by omega)]
  have htail : ∀ i < n % 32, f (a + 32 * (n / 32) + i) = g (c + 32 * (n / 32) + i) := fun i hi => by
    simpa only [Nat.add_assoc] using h (32 * (n / 32) + i) (by omega)
  rw [xxhFrom, xxhFrom, hstart, tailLoop_congr htail]

/-- `XXH` of a slice of the view. -/
theorem xxh_slice (seed : Word) (m : Memory) (a n : Nat) : xxh seed (m.slice a n) = xxhFrom m.byteAt seed a n := by
  have hlen : (m.slice a n).length = n := by simp [Memory.slice]
  rw [xxh, hlen]
  exact xxhFrom_congr (fun i hi => by simp [Memory.slice, hi]) seed

/-! ### Whole commands (R104, R108, R112, R113) -/

/-- In `t` the command running in `s` has been answered with the digest `d` (R29, R168). -/
structure Delivered (s t : State) (d : Word) : Prop where
  resp : t.resp = s.resp ++ [.ok d]
  digest : t.digest = some d
  status : t.status = 0x02
  errcode : t.errcode = 0x00
  phase : t.phase = .idle
  cmd : t.cmd = s.cmd

/-- From AVAL the engine answers with the avalanche of H, if ERR and ERRCODE were clear when the datapath took over
(R161, R168). -/
theorem passes_delivery {x : Word} (hk : KeepsControl s t) (hp : t.phase = .aval) (hx : t.h = some x)
    (herr : s.err = false) (hcode : s.errcode = 0#8) :
    ∃ u, Passes [.aval, .ret] t u ∧ Delivered s u (avalanche x) := by
  have haval := execAval_next.2 ⟨x, hx, rfl⟩
  have hret := (execRet_next (s := (t.setH (avalanche x)).goTo .ret)).2 ⟨avalanche x, rfl, rfl⟩
  refine ⟨_, passes_cons hp haval (passes_cons rfl hret .nil), ?_, rfl, ?_, ?_, rfl, ?_⟩
  · simp [hk.resp]
  · simp [State.status, hk.err, herr]
  · simp [hk.errcode, hcode]
  · simp [hk.cmd]

/-- A `HASH` that passed CHECK delivers the closed form of the bytes it addresses (R112). -/
theorem HashAt.passes_hash {seed offset length : Word} (hs : HashAt s (pathOf length) offset length)
    (hseed : s.seed = some seed) (hlen : s.len = some length) (herr : s.err = false) (hcode : s.errcode = 0#8) :
    ∃ t, Passes (pathTrace length.toNat ++ (Phase.addlen :: tailTrace (length.toNat % 32) ++ [Phase.aval, .ret])) s t ∧
      Delivered s t (xxh seed (s.view.slice offset.toNat length.toNat)) := by
  obtain ⟨t, ptr, rem, hpath, haddlen, hh, hptr, hrem⟩ := hs.passes_path hseed
  have hk := hpath.keepsControl (pathTrace_datapath _)
  obtain ⟨u, htail, haval, -, -, hx⟩ := haddlen.passes_addlen hh (hk.len.trans hlen)
  have hk' := htail.keepsControl (List.forall_mem_cons.2 ⟨by decide, tailTrace_datapath _⟩)
  obtain ⟨v, hret, hdone⟩ := passes_delivery (hk.trans hk') haval hx herr hcode
  rw [hk.view, hptr, hrem] at hdone
  rw [hrem] at htail
  refine ⟨v, hpath.append (htail.append hret), ?_⟩
  rw [xxh_slice, xxhFrom, BitVec.ofNat_toNat, BitVec.setWidth_eq]
  exact hdone

/-- The step that takes a pending `HASH` (R102). -/
theorem step_of_pending_hash {c : Descriptor} {seed offset length : Word} (hp : s.phase = .idle) (hc : s.cmd = some c)
    (hd : decodeCommand c = .instr (.hash seed offset length)) :
    step s = .next (s.acceptHash seed offset length) := by
  rw [step_of_pending hp hc, hd, acceptDecoded_hash]

/-- CHECK lets an accepted `HASH` inside the view pass (R108). -/
theorem exec_check_acceptHash {seed offset length : Word} (hin : offset.toNat + length.toNat ≤ s.viewLen)
    (hview : s.viewLen < 2 ^ 63) :
    exec .check (s.acceptHash seed offset length) =
      .next ((s.acceptHash seed offset length).goTo (pathOf length)) := by
  refine execCheck_next.2 ⟨offset, length, rfl, rfl, .inr ⟨?_, rfl⟩⟩
  rw [State.acceptHash_viewLen, boundsViolated_eq_decide hview]
  simpa using hin

/-- Past CHECK an accepted `HASH` has the whole of its bytes left. -/
theorem hashAt_acceptHash {seed offset length : Word} (hin : offset.toNat + length.toNat ≤ s.viewLen)
    (hview : s.viewLen < 2 ^ 63) (p : Phase) :
    HashAt ((s.acceptHash seed offset length).goTo p) p offset length :=
  ⟨rfl, rfl, rfl, rfl, by simpa using hin, by simpa using hview⟩

/-- Settles O50: acceptance and CHECK lead to the start of a path, from which the closed form is delivered. -/
theorem hashComputesClosedForm : Obligations.HashComputesClosedForm := by
  intro s c seed offset length hs hp hc hd hin
  have haccept := step_of_pending_hash hp hc hd
  have hcheck := exec_check_acceptHash (seed := seed) hin hs.viewLen_lt
  obtain ⟨t, hrun, hdone⟩ := (hashAt_acceptHash hin hs.viewLen_lt _).passes_hash (seed := seed) rfl rfl rfl rfl
  have hpass : Passes (hashTrace length.toNat) s t := by
    rw [hashTrace_eq]
    exact .cons hp haccept (passes_cons rfl hcheck hrun)
  rw [State.goTo_view, State.acceptHash_view] at hdone
  exact ⟨t, hpass.runsTo, hpass.phasesOf_eq, by simpa using hdone.resp, hdone.digest, hdone.status, hdone.errcode,
    hdone.phase, by simpa using hdone.cmd⟩

/-- SSEED, ADDLEN and T8 of an accepted `HASHV` (R104). -/
theorem passes_hashv {value : Word} (s : State) :
    ∃ t, Passes [.sseed, .addlen, .t8] (s.acceptHashv value) t ∧ t.phase = .aval ∧
      t.h = some (tail8 (0x27D4EB2F165667C5 + 8) value) := by
  have hstart : 0#64 + P5 + 8#64 = 0x27D4EB2F165667C5 + 8 := by decide
  rw [← hstart]
  exact ⟨_, passes_cons (p := .sseed) rfl (execSseed_next.2 ⟨0#64, rfl, rfl⟩) <|
    passes_cons (p := .addlen) rfl (execAddlen_next.2 ⟨0#64 + P5, 8#64, 8#64, rfl, rfl, rfl, rfl⟩) <|
    passes_cons (p := .t8) rfl
      (execT8_next.2 ⟨0#64 + P5 + 8#64, 0#64, 8#64, value, rfl, rfl, rfl, .inl ⟨rfl, rfl⟩, rfl⟩) .nil, rfl, rfl⟩

/-- Settles O51: acceptance, the three steps over VAL and the delivery. -/
theorem hashvComputesShortcut : Obligations.HashvComputesShortcut := by
  intro s c value hp hc hd
  have haccept : step s = .next (s.acceptHashv value) := by
    rw [step_of_pending hp hc, hd, acceptDecoded_hashv]
  obtain ⟨t, hrun, haval, hx⟩ := passes_hashv (value := value) s
  obtain ⟨u, hret, hdone⟩ := passes_delivery (hrun.keepsControl (by decide)) haval hx rfl rfl
  have hpass : Passes [.idle, .sseed, .addlen, .t8, .aval, .ret] s u := .cons hp haccept (hrun.append hret)
  exact ⟨u, hpass.runsTo, hpass.phasesOf_eq, by simpa using hdone.resp, hdone.digest, hdone.status, hdone.errcode,
    hdone.phase⟩

/-- Settles O53: acceptance, then fault entry at CHECK. -/
theorem outOfBoundsHashFaults : Obligations.OutOfBoundsHashFaults := by
  intro s c seed offset length hp hc hd hbad
  have haccept := step_of_pending_hash hp hc hd
  have hcheck := execCheck_next.2 ⟨offset, length, State.acceptHash_ptr s seed offset length,
    State.acceptHash_len s seed offset length, .inl ⟨boundsViolated_iff.2 (by simpa using hbad), rfl⟩⟩
  have hpass : Passes [.idle, .check] s ((s.acceptHash seed offset length).raise .bounds) :=
    .cons hp haccept (passes_cons (State.acceptHash_phase ..) hcheck .nil)
  refine ⟨_, hpass.runsTo, hpass.phasesOf_eq, ?_⟩
  simp [State.status, Cause.code]

end Sys2Proof.Machine
end

section
/-! PROOFS. The bound on the steps of a command (R113, R114). -/

namespace Sys2Proof.Machine

variable {s t : State}

/-! ### How many steps are left (R113) -/

/-- The tail of less than a block has at most three T8, one T4 and three T1. -/
theorem length_tailTrace_le {r : Nat} (hr : r < 32) : (tailTrace r).length ≤ 7 := by
  have h4 : t4Count r ≤ 1 := by unfold t4Count; split <;> omega
  simp only [tailTrace, List.length_append, List.length_replicate, t8Count, t1Count]
  omega

/-- The steps left in a phase with `r` bytes left, the response's own step included, if CHECK lets the command pass
(R113). -/
def stepsLeft (r : Nat) : Phase → Nat
  | .idle => 0
  | .ret => 1
  | .aval => 2
  | .t8 | .t4 | .t1 => (tailTrace r).length + 2
  | .addlen => (tailTrace r).length + 3
  | .mrg4 | .sseed => (tailTrace r).length + 4
  | .mrg3 => (tailTrace r).length + 5
  | .mrg2 => (tailTrace r).length + 6
  | .mrg1 => (tailTrace r).length + 7
  | .fold => (tailTrace r).length + 8
  | .blk => r / 32 + (tailTrace (r % 32)).length + 8
  | .linit => r / 32 + (tailTrace (r % 32)).length + 9
  | .check => r / 32 + (tailTrace (r % 32)).length + 10

/-- The steps left of the command running in a state. -/
def State.stepsLeft (s : State) : Nat := Machine.stepsLeft (s.rem.getD 0).toNat s.phase

theorem stepsLeft_pos {p : Phase} (hp : p ≠ .idle) (r : Nat) : 1 ≤ stepsLeft r p := by
  cases p with
  | idle => exact absurd rfl hp
  | _ => simp [stepsLeft]

theorem stepsLeft_nextTail (r : Word) : stepsLeft r.toNat (nextTail r) = (tailTrace r.toNat).length + 2 := by
  obtain ⟨-, h⟩ | ⟨-, -, h⟩ | ⟨-, -, h⟩ | ⟨hr, h⟩ := nextTail_cases r
  case inr.inr.inr => rw [h, hr]; rfl
  all_goals rw [h]; rfl

theorem stepsLeft_nextBlock (r : Word) :
    stepsLeft r.toNat (nextBlock r) = r.toNat / 32 + (tailTrace (r.toNat % 32)).length + 8 := by
  obtain ⟨-, h⟩ | ⟨hr, h⟩ := nextBlock_cases r <;> rw [h, stepsLeft]
  rw [Nat.div_eq_of_lt hr, Nat.mod_eq_of_lt hr, Nat.zero_add]

theorem stepsLeft_pathOf_lt (len : Word) : stepsLeft len.toNat (pathOf len) < stepsLeft len.toNat .check := by
  obtain ⟨-, h⟩ | ⟨hr, h⟩ := pathOf_cases len <;> rw [h, stepsLeft, stepsLeft]
  · omega
  · rw [Nat.mod_eq_of_lt hr]
    omega

theorem pathOf_running (len : Word) : pathOf len ≠ .idle ∧ pathOf len ≠ .check := by
  obtain ⟨-, h⟩ | ⟨-, h⟩ := pathOf_cases len <;> rw [h] <;> decide

theorem stepsLeft_scalarRows {p q : Phase} (hrow : (p, q) ∈ scalarRows) (r : Nat) : stepsLeft r q < stepsLeft r p := by
  obtain ⟨rfl, rfl⟩ | ⟨rfl, rfl⟩ | ⟨rfl, rfl⟩ | ⟨rfl, rfl⟩ | ⟨rfl, rfl⟩ | ⟨rfl, rfl⟩ := mem_scalarRows.1 hrow <;>
    simp [stepsLeft]

/-- In a tail phase that REM fits the tail goes on with that phase. -/
theorem tailGoesOn_of_fits {p : Phase} {n len r : Nat} (hrow : (p, n) ∈ tailRows) (hfit : remFits p len r = true) :
    TailGoesOn r p n := by
  obtain ⟨rfl, rfl⟩ | ⟨rfl, rfl⟩ | ⟨rfl, rfl⟩ := mem_tailRows.1 hrow
  · have h8 : 8 ≤ r ∧ r < 32 := by simpa [remFits] using hfit
    exact tailGoesOn_t8 h8.1
  · have h4 : 4 ≤ r ∧ r < 8 := by simpa [remFits] using hfit
    exact tailGoesOn_t4 h4.1 h4.2
  · have h1 : 1 ≤ r ∧ r < 4 := by simpa [remFits] using hfit
    exact tailGoesOn_t1 h1.1 h1.2

theorem stepsLeft_tailRows {p : Phase} {n : Nat} (hrow : (p, n) ∈ tailRows) (r : Nat) :
    stepsLeft r p = (tailTrace r).length + 2 := by
  obtain ⟨rfl, -⟩ | ⟨rfl, -⟩ | ⟨rfl, -⟩ := mem_tailRows.1 hrow <;> rfl

/-- A datapath micro-operation leaves fewer steps. -/
theorem DataEffect.stepsLeft_lt (hs : Inv s) (hp : s.phase ≠ .idle) (h : DataEffect s s.phase t) :
    t.stepsLeft < s.stepsLeft := by
  have hfit := fun {rem} => hs.remFits (rem := rem) hp
  unfold State.stepsLeft
  generalize s.phase = p at h hfit
  cases h with
  | linit | mrg4 => simp [stepsLeft]
  | @blk _ _ _ _ _ rem _ hrem =>
    obtain ⟨_, hfit⟩ := hfit hrem
    have hn : 32 ≤ rem.toNat := by simpa [Machine.remFits] using hfit
    have hr : (rem - 32#64).toNat = rem.toNat - 32 := toNat_sub_of_le hn
    simp only [State.goTo_phase, State.goTo_rem, State.consume_rem, hrem, Option.getD_some]
    rw [stepsLeft_nextBlock, hr, ← Nat.mod_eq_sub_mod hn, stepsLeft]
    omega
  | scalar x hrow => exact stepsLeft_scalarRows hrow _
  | @addlen _ rem hrem =>
    simp only [State.goTo_phase, State.goTo_rem, State.setH_rem, hrem, Option.getD_some]
    rw [stepsLeft_nextTail, stepsLeft]
    omega
  | @tail _ _ n _ rem hrow _ hrem =>
    obtain ⟨_, hfit⟩ := hfit hrem
    have hgo := tailGoesOn_of_fits hrow hfit
    simp only [State.goTo_phase, State.goTo_rem, State.consume_rem, hrem, Option.getD_some]
    rw [stepsLeft_nextTail, stepsLeft_tailRows hrow, toNat_sub_of_le hgo.le, hgo.trace, List.length_cons]
    omega

/-- At CHECK the whole length is left. -/
theorem Inv.rem_eq_len_of_check (hs : Inv s) (hp : s.phase = .check) : s.rem = s.len := by
  obtain ⟨_, len, _, rem, hl⟩ | ⟨_, _, _, _, hl⟩ := hs.latches_cases (by simp [hp])
  · have hfit : rem.toNat = len.toNat := by simpa [hp, Machine.remFits] using hl.fits
    rw [hl.hrem, hl.hlen, BitVec.eq_of_toNat_eq hfit]
  · simpa [hp] using mem_hashvRows.1 hl.row

/-- A step that does not end its command leaves fewer steps. -/
theorem Inv.stepsLeft_lt (hs : Inv s) (hp : s.phase ≠ .idle) (h : step s = .next t) (hrun : t.phase ≠ .idle) :
    t.stepsLeft < s.stepsLeft := by
  cases stepEffect_of_step h with
  | wait hidle | hash hidle | hashv hidle | illegal hidle => exact absurd hidle hp
  | bounds | ret => exact absurd rfl hrun
  | path hc _ hlen =>
    have hrem := (hs.rem_eq_len_of_check hc).trans hlen
    simpa [State.stepsLeft, hc, hrem] using stepsLeft_pathOf_lt _
  | data _ h => exact h.stepsLeft_lt hs hp

/-! ### Answers within a number of steps (R114) -/

/-- Within `n` steps the engine emits one response and is idle. -/
def AnswersWithin (n : Nat) (s : State) : Prop :=
  ∃ (k : Nat) (t : State) (e : Response), k ≤ n ∧ RunsTo k s t ∧ t.resp = s.resp ++ [e] ∧ t.phase = .idle

theorem AnswersWithin.mono {n m : Nat} (h : AnswersWithin n s) (hn : n ≤ m) : AnswersWithin m s := by
  obtain ⟨k, t, e, hk, hans⟩ := h
  exact ⟨k, t, e, hk.trans hn, hans⟩

theorem answersWithin_one {n : Nat} {e : Response} (h : step s = .next t) (hr : t.resp = s.resp ++ [e])
    (hp : t.phase = .idle) (hn : 1 ≤ n) : AnswersWithin n s :=
  ⟨1, t, e, hn, runsTo_one h, hr, hp⟩

/-- A step that emits nothing leaves the answer to the steps after it. -/
theorem answersWithin_succ {n m : Nat} (h : step s = .next t) (hr : t.resp = s.resp) (ha : AnswersWithin n t)
    (hn : n < m) : AnswersWithin m s := by
  obtain ⟨k, u, e, hk, hrun, hresp, hidle⟩ := ha
  exact ⟨k + 1, u, e, by omega, runsTo_succ h hrun, by rw [hresp, hr], hidle⟩

/-- A running command is answered within the steps left. -/
theorem Inv.answersWithin_stepsLeft (hs : Inv s) (hp : s.phase ≠ .idle) : AnswersWithin s.stepsLeft s := by
  induction hw : s.stepsLeft using Nat.strong_induction_on generalizing s with
  | _ w ih =>
    obtain ⟨t, ht⟩ := hs.step_total
    obtain ⟨hidle, e, he⟩ | ⟨hrun, hquiet, -⟩ := hs.answers_or_works hp ht
    · exact answersWithin_one ht he hidle (hw ▸ stepsLeft_pos hp _)
    · have hless : t.stepsLeft < w := hw ▸ hs.stepsLeft_lt hp ht hrun
      exact answersWithin_succ ht hquiet (ih _ hless (stepKeepsInvariant s t hs ht) hrun rfl) hless

/-- Past CHECK there is a step per whole block left, and at most sixteen others. -/
theorem stepsLeft_le_of_fits {p : Phase} {len r : Nat} (hfit : remFits p len r = true) (hc : p ≠ .check) :
    stepsLeft r p ≤ r / 32 + 16 := by
  have hblock : (tailTrace (r % 32)).length ≤ 7 := length_tailTrace_le (Nat.mod_lt _ (by decide))
  cases p with
  | check => exact absurd rfl hc
  | idle | ret | aval => simp [stepsLeft]
  | linit | blk => rw [stepsLeft]; omega
  | _ =>
    have hr : r < 32 := by simp [remFits] at hfit; omega
    have htail := length_tailTrace_le hr
    rw [stepsLeft]
    omega

theorem Inv.stepsLeft_le (hs : Inv s) (hp : s.phase ≠ .idle) (hc : s.phase ≠ .check) :
    s.stepsLeft ≤ s.viewLen / 32 + 16 := by
  obtain ⟨_, len, ptr, rem, hl⟩ | ⟨_, _, rem, _, hl⟩ := hs.latches_cases hp
  · have hin := hl.inside.resolve_left hc
    have hle := stepsLeft_le_of_fits hl.fits hc
    have hblocks : rem.toNat / 32 ≤ s.viewLen / 32 := Nat.div_le_div_right (by omega)
    simp only [State.stepsLeft, hl.hrem, Option.getD_some]
    omega
  · obtain ⟨hfit, h8, -⟩ := hashvRows_fits hl.row
    have hle := stepsLeft_le_of_fits hfit hc
    simp only [State.stepsLeft, hl.hrem, Option.getD_some]
    omega

/-- A running command is answered within the bound; a CHECK that faults answers at once. -/
theorem Inv.answersWithin_running (hs : Inv s) (hp : s.phase ≠ .idle) : AnswersWithin (s.viewLen / 32 + 17) s := by
  by_cases hc : s.phase = .check
  · obtain ⟨t, ht⟩ := hs.step_total
    have hinv := stepKeepsInvariant s t hs ht
    cases stepEffect_of_step ht with
    | wait hidle | hash hidle | hashv hidle | illegal hidle => exact absurd hidle hp
    | bounds => exact answersWithin_one ht rfl rfl (by omega)
    | path =>
      obtain ⟨hrun, hpast⟩ := pathOf_running _
      have hle := hinv.stepsLeft_le hrun hpast
      exact answersWithin_succ ht rfl (hinv.answersWithin_stepsLeft hrun) (Nat.lt_succ_of_le hle)
    | data hd => simp [hc, Phase.instr] at hd
    | ret hret => simp [hc] at hret
  · exact (hs.answersWithin_stepsLeft hp).mono (Nat.le_succ_of_le (hs.stepsLeft_le hp hc))

/-- A pending command is answered within the bound; an illegal one at once. -/
theorem Inv.answersWithin_pending (hs : Inv s) (hp : s.phase = .idle) (hc : s.cmd ≠ none) :
    AnswersWithin (s.viewLen / 32 + 18) s := by
  obtain ⟨t, ht⟩ := hs.step_total
  have hinv := stepKeepsInvariant s t hs ht
  cases stepEffect_of_step ht with
  | wait _ hnone => exact absurd hnone hc
  | hash => exact answersWithin_succ ht rfl (hinv.answersWithin_running (by simp)) (by simp)
  | hashv => exact answersWithin_succ ht rfl (hinv.answersWithin_running (by simp)) (by simp)
  | illegal => exact answersWithin_one ht rfl rfl (by omega)
  | bounds hcheck | path hcheck => simp [hp] at hcheck
  | data hd => exact absurd hp (ne_idle_of_mem_datapath hd)
  | ret hret => simp [hp] at hret

/-- A run keeps the invariant. -/
theorem inv_of_runsTo {k : Nat} (hs : Inv s) (h : RunsTo k s t) : Inv t := by
  induction k generalizing s with
  | zero =>
    obtain rfl : s = t := by simpa [RunsTo] using h
    exact hs
  | succ k ih =>
    obtain ⟨u, hu⟩ := hs.step_total
    exact ih (stepKeepsInvariant s u hs hu) ((runs_succ hu).symm.trans h)

/-- Settles O54: the answer comes within the bound, and a sound idle state holds no accumulator. -/
theorem everyCommandIsAnswered : Obligations.EveryCommandIsAnswered := by
  intro s hs hcmd
  have hwithin : AnswersWithin (s.viewLen / 32 + 18) s := by
    by_cases hp : s.phase = .idle
    · have hb : s.busy = false := by simp [hs.busy_eq, hp]
      exact hs.answersWithin_pending hp (Option.isSome_iff_ne_none.1 (hcmd.resolve_left (by simp [hb])))
    · exact (hs.answersWithin_running hp).mono (Nat.le_succ _)
  obtain ⟨k, t, e, hk, hrun, hresp, hidle⟩ := hwithin
  have ht := inv_of_runsTo hs hrun
  obtain ⟨⟨h1, h2, h3, h4⟩, hh⟩ := ht.accumulators_empty hidle (by decide)
  exact ⟨k, t, e, hk, hrun, hresp, hidle, by simp [ht.busy_eq, hidle], h1, h2, h3, h4, hh⟩

end Sys2Proof.Machine
end

section
/-! PROOFS. The block accumulator: BLK register by register, and the block loop from LINIT to FOLD with each lane as the
fold of its own words (R130 to R133). -/

namespace Sys2Proof.Machine

variable {s : State}

/-! ### BLK (R132) -/

/-- Settles O13: with `REM` at least 32 the loop test reads the number `REM - 32`. -/
theorem blkMixesOneBlock : Obligations.BlkMixesOneBlock := by
  intro s v1 v2 v3 v4 ptr rem h1 h2 h3 h4 hptr hrem h32 hin
  have hleft : (rem - 32#64).toNat = rem.toNat - 32 := toNat_sub_of_le h32
  rw [← hleft]
  exact execBlk_next.2 ⟨v1, v2, v3, v4, ptr, rem, h1, h2, h3, h4, hptr, hrem, hin, rfl⟩

/-! ### Each lane of the block loop (R133) -/

/-- The fold of `mix` over the words of lane `k + 1` in `q` blocks from `p` on. -/
def laneFold (b : Nat → Byte) (p q : Nat) (v : Word) (k : Nat) : Word :=
  (List.range q).foldl (fun v j => mix v (leWord b (p + 32 * j + 8 * k) 8)) v

/-- The first block's word is mixed in first. -/
theorem laneFold_succ (b : Nat → Byte) (p q : Nat) (v : Word) (k : Nat) :
    laneFold b p (q + 1) v k = laneFold b (p + 32) q (mix v (leWord b (p + 8 * k) 8)) k := by
  have haddr : ∀ j, p + 32 * (j + 1) = p + 32 + 32 * j := by omega
  simp only [laneFold, List.range_succ_eq_map, List.foldl_cons, List.foldl_map, haddr, Nat.mul_zero, Nat.add_zero]

/-- No lane of the block loop looks at another: each is the fold of its own words. -/
theorem blockLoop_eq_laneFolds (b : Nat → Byte) (q p : Nat) (l : Lanes) :
    blockLoop b q p l =
      ⟨laneFold b p q l.v1 0, laneFold b p q l.v2 1, laneFold b p q l.v3 2, laneFold b p q l.v4 3⟩ := by
  induction q generalizing p l with
  | zero => rfl
  | succ q ih =>
    simp only [blockLoop_succ, ih, Lanes.mixBlock, laneFold_succ, Nat.mul_zero, Nat.add_zero, Nat.reduceMul]

/-! ### From LINIT to FOLD (R131 to R133) -/

/-- A sound state at LINIT is that of a `HASH` of at least one block, of which nothing is consumed (R109). -/
theorem Inv.hashAt_linit (hs : Inv s) (hp : s.phase = .linit) {ptr len : Word} (hptr : s.ptr = some ptr)
    (hlen : s.len = some len) : HashAt s .linit ptr len ∧ 32 ≤ len.toNat := by
  obtain ⟨_, len', _, rem, hl⟩ | ⟨_, _, _, _, hl⟩ := hs.latches_cases (by simp [hp])
  · obtain rfl := Option.some.inj (hlen.symm.trans hl.hlen)
    obtain ⟨hfit, h32⟩ : rem.toNat = len.toNat ∧ 32 ≤ rem.toNat := by simpa [hp, Machine.remFits] using hl.fits
    obtain rfl := BitVec.eq_of_toNat_eq hfit
    have hat := hs.hashAt (by simp [hp]) (by simp [hp]) hl.himm hptr hl.hrem
    exact ⟨hp ▸ hat, h32⟩
  · simpa [hp] using mem_hashvRows.1 hl.row

/-- LINIT and the block loop: every whole block is consumed. -/
theorem HashAt.passes_linit {ptr rem seed : Word} (hs : HashAt s .linit ptr rem) (h32 : 32 ≤ rem.toNat)
    (hseed : s.seed = some seed) :
    ∃ t ptr' rem', Passes (.linit :: List.replicate (rem.toNat / 32) .blk) s t ∧ HashAt t .fold ptr' rem' ∧
      HasLanes t (blockLoop s.view.byteAt (rem.toNat / 32) ptr.toNat (Lanes.init seed)) ∧
      ptr'.toNat = ptr.toNat + 32 * (rem.toNat / 32) ∧ rem'.toNat = rem.toNat % 32 := by
  have hlinit := execLinit_next.2 ⟨seed, hseed, rfl⟩
  have hblk : nextBlock rem = .blk := by rw [nextBlock, if_pos h32]
  rw [← hblk] at hlinit
  obtain ⟨t, ptr', rem', hpass, hend⟩ :=
    ((hs.setLanes _ _ _ _).goTo (nextBlock rem)).passes_blocks (l := Lanes.init seed) ⟨rfl, rfl, rfl, rfl⟩ rfl
  exact ⟨t, ptr', rem', passes_cons hs.phase hlinit hpass, hend⟩

/-- Settles O48: a sound LINIT starts the block loop on the whole length. -/
theorem blockLoopFoldsEachLane : Obligations.BlockLoopFoldsEachLane := by
  intro s seed len ptr hs hp hseed hlen hptr
  obtain ⟨hat, h32⟩ := hs.hashAt_linit hp hptr hlen
  obtain ⟨t, ptr', rem', hpass, hfold, hlanes, hptr', hrem'⟩ := hat.passes_linit h32 hseed
  rw [blockLoop_eq_laneFolds] at hlanes
  have hrun : RunsTo (1 + len.toNat / 32) s t := by
    simpa [Nat.add_comm] using hpass.runsTo
  have hptr_eq : ptr' = ptr + BitVec.ofNat 64 (32 * (len.toNat / 32)) := by
    have hin := hat.inside
    have hb := hat.bounded
    exact BitVec.eq_of_toNat_eq (hptr'.trans (toNat_add_of_lt (by omega)).symm)
  have hrem_eq : rem' = BitVec.ofNat 64 (len.toNat % 32) := by
    rw [← hrem', BitVec.ofNat_toNat, BitVec.setWidth_eq]
  exact ⟨t, hrun, hfold.phase, ⟨hlanes.v1, hlanes.v2, hlanes.v3, hlanes.v4⟩, hptr_eq ▸ hfold.hptr,
    hrem_eq ▸ hfold.hrem⟩

end Sys2Proof.Machine
end

section
/-! PROOFS. The two ways into the scalar: FOLD from the lanes, SSEED from the seed alone (R141, R146). -/

namespace Sys2Proof.Machine

/-! ### FOLD (R141) -/

/-- R141 over the library's rotations. -/
theorem foldLanes_eq_rotateLeft (v1 v2 v3 v4 : Word) :
    foldLanes v1 v2 v3 v4 = v1.rotateLeft 1 + v2.rotateLeft 7 + v3.rotateLeft 12 + v4.rotateLeft 18 := by
  rw [foldLanes, rotl64_eq_rotateLeft v1 (by decide), rotl64_eq_rotateLeft v2 (by decide),
    rotl64_eq_rotateLeft v3 (by decide), rotl64_eq_rotateLeft v4 (by decide)]

/-- Settles O14: the sum is `foldLanes`, whose rotations are the library's. -/
theorem foldAddsRotatedLanes : Obligations.FoldAddsRotatedLanes := by
  intro s v1 v2 v3 v4 h1 h2 h3 h4
  rw [← foldLanes_eq_rotateLeft]
  exact execFold_next.2 ⟨v1, v2, v3, v4, h1, h2, h3, h4, rfl⟩

/-! ### SSEED (R146) -/

/-- Settles O16: the literal is P5 (R80). -/
theorem sseedSetsScalar : Obligations.SseedSetsScalar := fun _ seed hseed => execSseed_next.2 ⟨seed, hseed, rfl⟩

end Sys2Proof.Machine
end

section
/-! PROOFS. The avalanche: AVAL performs its five stages, each stage is a bijection, and only 0 gives 0 (R161 to
R167). -/

namespace Sys2Proof.Machine

/-! ### AVAL (R161) -/

/-- Settles O21: the five stages in series are `avalanche`. -/
theorem avalAppliesFiveStages : Obligations.AvalAppliesFiveStages := fun _ h hh => execAval_next.2 ⟨h, hh, rfl⟩

/-! ### The stages (R162 to R167) -/

/-- Only 0 is its own logical shift: a shift by at least 1 makes any other word smaller. -/
theorem eq_zero_of_ushiftRight_eq_self {d : Word} {r : Nat} (hr : 1 ≤ r) (hd : d >>> r = d) : d = 0 := by
  by_contra hne
  have hpos : 0 < d.toNat := Nat.pos_of_ne_zero fun h => hne (BitVec.eq_of_toNat_eq h)
  have hlt : d.toNat / 2 ^ r < d.toNat := Nat.div_lt_self hpos (Nat.one_lt_two_pow (by omega))
  rw [← Nat.shiftRight_eq_div_pow, ← BitVec.toNat_ushiftRight, hd] at hlt
  exact lt_irrefl _ hlt

/-- Two words with the same image differ by a word that is its own shift; and words are finitely many. -/
theorem xor_ushiftRight_bijective {r : Nat} (hr : 1 ≤ r) : Function.Bijective fun x : Word => x ^^^ (x >>> r) := by
  have : Finite Word := Finite.of_injective BitVec.toFin fun _ _ => BitVec.eq_of_toFin_eq
  refine Finite.injective_iff_bijective.1 fun x y hxy => BitVec.xor_eq_zero_iff.1 ?_
  have hxy : x ^^^ (x >>> r) = y ^^^ (y >>> r) := hxy
  refine eq_zero_of_ushiftRight_eq_self hr ?_
  calc (x ^^^ y) >>> r
      = x ^^^ (x ^^^ (x >>> r)) ^^^ (y >>> r) := by simp [BitVec.ushiftRight_xor_distrib]
    _ = x ^^^ (y ^^^ (y >>> r)) ^^^ (y >>> r) := by rw [hxy]
    _ = x ^^^ y := by simp [BitVec.xor_assoc]

theorem av1_bijective : Function.Bijective av1 := xor_ushiftRight_bijective (by decide)
theorem av2_bijective : Function.Bijective av2 := mul_bijective_of_odd P2_odd
theorem av3_bijective : Function.Bijective av3 := xor_ushiftRight_bijective (by decide)
theorem av4_bijective : Function.Bijective av4 := mul_bijective_of_odd P3_odd
theorem av5_bijective : Function.Bijective av5 := xor_ushiftRight_bijective (by decide)

/-! ### The avalanche (R167) -/

theorem avalanche_bijective : Function.Bijective avalanche :=
  av5_bijective.comp (av4_bijective.comp (av3_bijective.comp (av2_bijective.comp av1_bijective)))

theorem avalanche_zero : avalanche 0 = 0 := by decide

/-- Settles O27: shifted exclusive ors and odd multiplications; 0 goes to 0, and by injectivity nothing else does. -/
theorem avalancheBijective : Obligations.AvalancheBijective :=
  ⟨⟨av1_bijective, av2_bijective, av3_bijective, av4_bijective, av5_bijective⟩, avalanche_bijective,
    fun _ => avalanche_bijective.injective.eq_iff' avalanche_zero⟩

end Sys2Proof.Machine
end

section
/-! PROOFS. Fault entry (R170 to R178), and the independence of several engines (R183). -/

namespace Sys2Proof.Machine

variable {s t : State} {y y₁ y₂ : System} {i j k : Nat}

/-! ### Fault entry (R174, R175, R177) -/

/-- A step that emits a fault is the fault entry of ACCEPT or of CHECK: no other step emits an `err`. -/
theorem raises_of_err_emitted {c : BitVec 8} (h : step s = .next t) (hr : t.resp = s.resp ++ [.err c]) :
    (s.phase = .idle ∧ c = 0x02 ∧ t = s.beginAccept.raise .illegalCmd) ∨
      (s.phase = .check ∧ c = 0x01 ∧ t = s.raise .bounds) := by
  cases stepEffect_of_step h with
  | wait | hash | hashv | path | ret => simp at hr
  | data _ h => simp [h.keepsControl.resp] at hr
  | illegal hp =>
    obtain rfl : Cause.illegalCmd.code = c := by simpa using hr
    exact .inl ⟨hp, rfl, rfl⟩
  | bounds hp =>
    obtain rfl : Cause.bounds.code = c := by simpa using hr
    exact .inr ⟨hp, rfl, rfl⟩

/-- Settles O46: fault entry, and what ACCEPT does before it, write neither accumulators nor latches. -/
theorem faultsArePrecise : Obligations.FaultsArePrecise := by
  intro s t c h hr
  obtain ⟨hp, hc, rfl⟩ | ⟨hp, hc, rfl⟩ := raises_of_err_emitted h hr
  · exact ⟨.inl ⟨hp, hc⟩, by simp⟩
  · exact ⟨.inr ⟨hp, hc⟩, by simp⟩

/-! ### Several engines (R183) -/

/-- The engine that steps takes its own step. -/
theorem stepEngine_self (h : y.stepEngine i = some (.next y₁)) :
    ∃ s t, y.engines[i]? = some s ∧ step s = .next t ∧ y₁.engines[i]? = some t := by
  obtain ⟨s, t, hs, hst, rfl⟩ := stepEngine_next.1 h
  obtain ⟨hi, -⟩ := List.getElem?_eq_some_iff.1 hs
  exact ⟨s, t, hs, hst, List.getElem?_set_self hi⟩

/-- Every other engine is as before. -/
theorem stepEngine_frame (h : y.stepEngine i = some (.next y₁)) (hk : k ≠ i) : y₁.engines[k]? = y.engines[k]? := by
  obtain ⟨s, t, -, -, rfl⟩ := stepEngine_next.1 h
  exact List.getElem?_set_ne hk.symm

/-- Two different engines that can step reach the same system in either order. -/
theorem stepEngine_comm (hij : i ≠ j) (hi : y.stepEngine i = some (.next y₁)) (hj : y.stepEngine j = some (.next y₂)) :
    ∃ z, y₁.stepEngine j = some (.next z) ∧ y₂.stepEngine i = some (.next z) := by
  have hframe_j := stepEngine_frame hi hij.symm
  have hframe_i := stepEngine_frame hj hij
  obtain ⟨s, t, hs, hst, rfl⟩ := stepEngine_next.1 hi
  obtain ⟨s', t', hs', hst', rfl⟩ := stepEngine_next.1 hj
  exact ⟨⟨(y.engines.set i t).set j t'⟩,
    stepEngine_next.2 ⟨s', t', hframe_j.trans hs', hst', rfl⟩,
    stepEngine_next.2 ⟨s, t, hframe_i.trans hs, hst, by rw [List.set_comm _ _ hij]⟩⟩

/-- Settles O60: a step writes one entry of the list, and writes to two entries commute. -/
theorem enginesStepIndependently : Obligations.EnginesStepIndependently :=
  ⟨fun _ _ _ h => ⟨stepEngine_self h, fun _ => stepEngine_frame h⟩, fun _ _ _ _ _ => stepEngine_comm⟩

end Sys2Proof.Machine
end
